-- ==== Sys2Proof/Word.lean ====
section
/-! DEFINITION. The word types of the block and its two one-bit names: bit order and polarity. -/

namespace Sys2Proof

/-- R7: an unsigned integer of 8 bits, the unit of every stream (R9). -/
abbrev Byte := BitVec 8

/-- R7: an unsigned integer of 16 bits. -/
abbrev Word16 := BitVec 16

/-- R26, R52: the order in which bits are packed into a byte. -/
inductive BitOrder where
  | msb
  | lsb
deriving DecidableEq, Repr

/-- R25: a Huffman polarity bit, 0 for white and 1 for black. -/
inductive Polarity where
  | white
  | black
deriving DecidableEq, Repr

end Sys2Proof
end

