-- ==== Sys2Proof/Config.lean ====
section
/-! DEFINITION. The OPEN parameters of rule R5, which the model takes as arguments: they stand in State and no operation
changes them (R6). The four hash parameters have no observable effect and are left out, as R6 allows (log 16). The
allocation failures of R282 are an input of the environment and stand in State (`allocDraws`, log 6). -/

namespace Sys2Proof

/-- R5: the two OPEN parameters that have an effect. -/
structure Params where
  /-- `SAMPLE_BYTES`, 1 to 8: the bytes of one count/value sample (D22). -/
  sampleBytes : Nat
  /-- `OUT_CAPACITY`: the bytes an output stream may hold (D28, R62). -/
  outCapacity : Nat
deriving DecidableEq, Repr

/-- R5: the stated range of `SAMPLE_BYTES`. -/
def Params.ok (p : Params) : Bool := decide (1 ≤ p.sampleBytes) && decide (p.sampleBytes ≤ 8)

end Sys2Proof
end

