-- ==== Sys2Proof/Machine/Constants.lean ====
section
/-! DEFINITION. The fixed parameters of rule R5, by the spec's names. -/

namespace Sys2Proof.Machine

/-- `CLEAR_CODE`. -/
def clearCode : Nat := 256
/-- `END_CODE`. -/
def endCode : Nat := 257
/-- `FIRST_FREE`. -/
def firstFree : Nat := 258
/-- `LZW_INITIAL_BITS` (D14). -/
def lzwInitialBits : Nat := 9
/-- `LZW_MAX_BITS`. -/
def lzwMaxBits : Nat := 12
/-- `LZW_DICT_CAP`. -/
def lzwDictCap : Nat := 4096
/-- `SUBBLOCK_MAX`. -/
def subBlockMax : Nat := 255
/-- `PB_MAX_REPEAT`. -/
def pbMaxRepeat : Nat := 128
/-- `PB_MAX_LITERAL`. -/
def pbMaxLiteral : Nat := 127
/-- `PB_MIN_REPEAT`. -/
def pbMinRepeat : Nat := 3
/-- `CV_MAX_PACKET` (C3). -/
def cvMaxPacket : Nat := 255
/-- `RUN_COUNT_MAX`. -/
def runCountMax : Nat := 65536
/-- `MAX_COLUMNS` (D30). -/
def maxColumns : Nat := 65536
/-- `HUF_MAX_CODE_LEN`. -/
def hufMaxCodeLen : Nat := 13
/-- `HUF_RTC_EOLS`. -/
def hufRtcEols : Nat := 6
/-- `HUF_BLANK_LINES_EOP`. -/
def hufBlankLinesEop : Nat := 3
/-- `A85_LINE_WIDTH` (C5). -/
def a85LineWidth : Nat := 72
/-- `BITIO_MAX_WIDTH` (D29). -/
def bitIoMaxWidth : Nat := 16

end Sys2Proof.Machine
end

