-- ==== Sys2Proof/Syntax.lean ====
section
/-! DEFINITION. The instructions: one constructor for each row of spec/opcode_table.json. The first 24 are the operations
of rule R71 with their operand values, then the reserved opcodes (R72), the 196 Huffman code words (R80 to R85) and the
tokens of the other streams (R87 to R92). -/

namespace Sys2Proof

/-- R22: a pixel sample, a palette value or a tuple of channels; `raw` is the opaque byte string the count/value coder
carries (D22, log 14). The block never looks inside one. -/
inductive PixelSample where
  | index (v : Word16)
  | rgb8 (r g b : Byte) (alpha : Option Byte)
  | rgb16 (r g b : Word16) (alpha : Option Word16)
  | raw (bytes : List Byte)
deriving DecidableEq, Repr

/-- R22, R23: one run of the count/value coder, its sample a byte string. -/
structure CvRun where
  sample : List Byte
  count : Nat
deriving DecidableEq, Repr

/-- R131: the operand of `HUF_ENC_LINE`, a pixel row or a run sequence. -/
inductive Line where
  | row (px : List Polarity)
  | runs (rs : List (Polarity × Nat))
deriving DecidableEq, Repr

/-- The instructions of the opcode table. -/
inductive Instr where
  /-- `RM_SET`: R114: write the run-model register. -/
  | rmSet (sample : PixelSample) (count : Nat)
  /-- `RM_GET`: R115: read the run-model register. -/
  | rmGet
  /-- `BW_INIT`: R101 -/
  | bwInit (order : Nat)
  /-- `BW_WRITE`: R102 -/
  | bwWrite (value : Word16) (width : Nat)
  /-- `BW_FLUSH`: R103 -/
  | bwFlush
  /-- `BR_INIT`: R105 -/
  | brInit (order : Nat) (input : List Byte)
  /-- `BR_READ`: R106 -/
  | brRead (width : Nat)
  /-- `HUF_ENC_BEGIN`: R130 -/
  | hufEncBegin (columns : Nat)
  /-- `HUF_ENC_LINE`: R131 -/
  | hufEncLine (line : Line)
  /-- `HUF_ENC_END`: R138 -/
  | hufEncEnd
  /-- `HUF_DEC_BEGIN`: R140 -/
  | hufDecBegin (input : List Byte) (columns : Nat)
  /-- `HUF_DEC_LINE`: R142 -/
  | hufDecLine
  /-- `HUF_DEC_PAGE`: R150 -/
  | hufDecPage (rows : Nat)
  /-- `LZW_ENC`: R181 -/
  | lzwEnc (input : List Byte)
  /-- `LZW_DEC`: R190 -/
  | lzwDec (input : List Byte) (expected : Nat)
  /-- `SB_PACK`: R200 -/
  | sbPack (input : List Byte)
  /-- `SB_UNPACK`: R201 -/
  | sbUnpack (input : List Byte)
  /-- `PB_ENC`: R221 -/
  | pbEnc (input : List Byte)
  /-- `PB_DEC`: R226 -/
  | pbDec (input : List Byte) (total : Nat)
  /-- `CV_ENC`: R231 -/
  | cvEnc (runs : List CvRun) (total : Nat)
  /-- `CV_DEC`: R235 -/
  | cvDec (input : List Byte) (total : Nat)
  /-- `A85_ENC_BYTE`: R251 -/
  | a85EncByte (b : Byte)
  /-- `A85_ENC_END`: R254 -/
  | a85EncEnd
  /-- `A85_DEC`: R258 -/
  | a85Dec (input : List Byte)
  /-- `RESERVED_OPCODE`: R72: a command byte that is none of the 24 opcodes. -/
  | reservedOpcode (opcode : Byte)
  -- White terminating codes (R80).
  | wTerm0 | wTerm1 | wTerm2 | wTerm3 | wTerm4 | wTerm5 | wTerm6 | wTerm7
  | wTerm8 | wTerm9 | wTerm10 | wTerm11 | wTerm12 | wTerm13 | wTerm14 | wTerm15
  | wTerm16 | wTerm17 | wTerm18 | wTerm19 | wTerm20 | wTerm21 | wTerm22 | wTerm23
  | wTerm24 | wTerm25 | wTerm26 | wTerm27 | wTerm28 | wTerm29 | wTerm30 | wTerm31
  | wTerm32 | wTerm33 | wTerm34 | wTerm35 | wTerm36 | wTerm37 | wTerm38 | wTerm39
  | wTerm40 | wTerm41 | wTerm42 | wTerm43 | wTerm44 | wTerm45 | wTerm46 | wTerm47
  | wTerm48 | wTerm49 | wTerm50 | wTerm51 | wTerm52 | wTerm53 | wTerm54 | wTerm55
  | wTerm56 | wTerm57 | wTerm58 | wTerm59 | wTerm60 | wTerm61 | wTerm62 | wTerm63
  -- Black terminating codes (R81).
  | bTerm0 | bTerm1 | bTerm2 | bTerm3 | bTerm4 | bTerm5 | bTerm6 | bTerm7
  | bTerm8 | bTerm9 | bTerm10 | bTerm11 | bTerm12 | bTerm13 | bTerm14 | bTerm15
  | bTerm16 | bTerm17 | bTerm18 | bTerm19 | bTerm20 | bTerm21 | bTerm22 | bTerm23
  | bTerm24 | bTerm25 | bTerm26 | bTerm27 | bTerm28 | bTerm29 | bTerm30 | bTerm31
  | bTerm32 | bTerm33 | bTerm34 | bTerm35 | bTerm36 | bTerm37 | bTerm38 | bTerm39
  | bTerm40 | bTerm41 | bTerm42 | bTerm43 | bTerm44 | bTerm45 | bTerm46 | bTerm47
  | bTerm48 | bTerm49 | bTerm50 | bTerm51 | bTerm52 | bTerm53 | bTerm54 | bTerm55
  | bTerm56 | bTerm57 | bTerm58 | bTerm59 | bTerm60 | bTerm61 | bTerm62 | bTerm63
  -- White makeup codes (R82).
  | wMakeup64 | wMakeup128 | wMakeup192 | wMakeup256 | wMakeup320 | wMakeup384 | wMakeup448 | wMakeup512
  | wMakeup576 | wMakeup640 | wMakeup704 | wMakeup768 | wMakeup832 | wMakeup896 | wMakeup960 | wMakeup1024
  | wMakeup1088 | wMakeup1152 | wMakeup1216 | wMakeup1280 | wMakeup1344 | wMakeup1408 | wMakeup1472 | wMakeup1536
  | wMakeup1600 | wMakeup1664 | wMakeup1728
  -- Black makeup codes (R83).
  | bMakeup64 | bMakeup128 | bMakeup192 | bMakeup256 | bMakeup320 | bMakeup384 | bMakeup448 | bMakeup512
  | bMakeup576 | bMakeup640 | bMakeup704 | bMakeup768 | bMakeup832 | bMakeup896 | bMakeup960 | bMakeup1024
  | bMakeup1088 | bMakeup1152 | bMakeup1216 | bMakeup1280 | bMakeup1344 | bMakeup1408 | bMakeup1472 | bMakeup1536
  | bMakeup1600 | bMakeup1664 | bMakeup1728
  -- Extension makeup codes, in both sets (R84).
  | extMakeup1792 | extMakeup1856 | extMakeup1920 | extMakeup1984 | extMakeup2048 | extMakeup2112 | extMakeup2176 | extMakeup2240
  | extMakeup2304 | extMakeup2368 | extMakeup2432 | extMakeup2496 | extMakeup2560
  -- End of line (R85).
  | eol
  /-- `LZW_LITERAL`: R87: a code 0 to 255. -/
  | lzwLiteral (c : Byte)
  /-- `LZW_CLEAR`: R192: code 256. -/
  | lzwClear
  /-- `LZW_END`: R197: code 257. -/
  | lzwEnd
  /-- `LZW_STRING`: R191: a code 258 to `next - 1`. -/
  | lzwString (k : Nat)
  /-- `LZW_NEXT`: R193: the code `next`, after a previous code. -/
  | lzwNext
  /-- `LZW_ILLEGAL`: R196: a code above `next`, or 258 and up with no previous code. -/
  | lzwIllegal (k : Nat)
  /-- `SB_LENGTH`: R88: a length byte 1 to 255. -/
  | sbLength (len : Byte)
  /-- `SB_TERMINATOR`: R88: the length byte 0. -/
  | sbTerminator
  /-- `PB_LITERAL`: R89: header `0nnnnnnn`. -/
  | pbLiteral (n : BitVec 7)
  /-- `PB_ILLEGAL_80`: R227: header 0x80. -/
  | pbIllegal80
  /-- `PB_REPEAT`: R89: header `1hhhhhhh` other than 0x80. -/
  | pbRepeat (h : BitVec 7)
  /-- `CV_PACKET`: R90: the value bytes and the count byte. -/
  | cvPacket (value : List Byte) (k : Byte)
  /-- `A85_DIGIT`: R91: the character `33 + d`. -/
  | a85Digit (d : Nat)
  /-- `A85_ZERO`: R91: `z`. -/
  | a85Zero
  /-- `A85_END`: R91: `~>`. -/
  | a85End
  /-- `A85_LINEBREAK`: R91: LF. -/
  | a85Linebreak
  /-- `A85_WHITESPACE`: R92: a skipped byte other than LF. -/
  | a85Whitespace (b : Byte)
  /-- `A85_ILLEGAL`: R92: an illegal byte, or `~` not followed by `>`. -/
  | a85Illegal (b : Byte)
deriving DecidableEq, Repr

/-- R87: what one LZW code stands for. -/
inductive LzwTok where
  | literal (c : Byte)
  | clear
  | stop
  | string (k : Nat)
  | next
  | illegal (k : Nat)
deriving DecidableEq, Repr

/-- R88: what a length byte of a sub-block stream stands for. -/
inductive SbTok where
  | length (len : Byte)
  | terminator
deriving DecidableEq, Repr

/-- R89: what a PackBits header byte stands for. -/
inductive PbTok where
  | literal (n : BitVec 7)
  | illegal80
  | rep (h : BitVec 7)
deriving DecidableEq, Repr

/-- R91, R92: what an Ascii85 character stands for. -/
inductive A85Tok where
  | digit (d : Nat)
  | zero
  | stop
  | linebreak
  | whitespace (b : Byte)
  | illegal (b : Byte)
deriving DecidableEq, Repr

/-- R30: the classes of the code-table entries. -/
inductive CodeClass where
  | terminatingWhite
  | terminatingBlack
  | makeupWhite
  | makeupBlack
  | extension
  | eol
deriving DecidableEq, Repr

/-- R30, R77: one entry of the Huffman code tables. -/
structure Entry where
  cls : CodeClass
  code : Word16
  bitLength : Nat
  runValue : Nat
deriving DecidableEq, Repr

/-- R70: one operand value as the host passes it. -/
inductive Operand where
  | num (n : Nat)
  | bytes (bs : List Byte)
  | sample (p : PixelSample)
  | line (l : Line)
  | runs (rs : List CvRun)
deriving DecidableEq, Repr

/-- R70: a command as the host issues it, the opcode byte and the operand values (log 1). -/
structure Command where
  opcode : Byte
  operands : List Operand
deriving DecidableEq, Repr

/-- R71: the 24 operations by name, without their operands. -/
inductive Opcode where
  | rmSet | rmGet
  | bwInit | bwWrite | bwFlush | brInit | brRead
  | hufEncBegin | hufEncLine | hufEncEnd | hufDecBegin | hufDecLine | hufDecPage
  | lzwEnc | lzwDec | sbPack | sbUnpack
  | pbEnc | pbDec | cvEnc | cvDec
  | a85EncByte | a85EncEnd | a85Dec
deriving DecidableEq, Repr

/-- What a decoder of the block is shown: a command of the host, or the next piece of the stream a unit is reading together
with the registers that steer that unit's reading (R141, R87). -/
inductive Code where
  /-- a command word with its operand values -/
  | command (opcode : Byte) (operands : List Operand)
  /-- the Huffman stream from a code boundary, read in the set of one colour -/
  | huf (set : Polarity) (bits : List Bool)
  /-- one LZW code value, with whether a previous code exists and the register `next` -/
  | lzw (prevKnown : Bool) (next : Nat) (value : Nat)
  /-- a length byte of a sub-block stream -/
  | subBlock (b : Byte)
  /-- a header byte of a PackBits stream -/
  | packBits (h : Byte)
  /-- a count/value stream from a packet boundary -/
  | countValue (sampleBytes : Nat) (bytes : List Byte)
  /-- an Ascii85 character with the byte after it, if there is one -/
  | ascii85 (c : Byte) (follow : Option Byte)
deriving DecidableEq, Repr

/-- Why a decoder reads no instruction. -/
inductive DecodeError where
  /-- the operand values are not of the kinds R71 gives the opcode (U2) -/
  | operands
  /-- no code word within `HUF_MAX_CODE_LEN` bits (R145) -/
  | noCode
  /-- the stream ends inside the token (R64) -/
  | endOfInput
deriving DecidableEq, Repr

end Sys2Proof
end

