-- ==== Sys2Proof/WellFormed.lean ====
section
/-! DEFINITION. The well-formed instructions: operands in the ranges of rule R71, tokens whose operands are those an encoding
of rules R87 to R92 can carry. An operation that is not well formed is still executed: the block refuses it with
InvalidOperand (R72). -/

namespace Sys2Proof

open Sys2Proof.Machine

/-- R71: an `order` operand. -/
def orderOk (o : Nat) : Bool := decide (o ≤ 1)

/-- R71: a `width` operand. -/
def widthOk (w : Nat) : Bool := decide (w ≤ bitIoMaxWidth)

/-- R71: a `columns` operand. -/
def columnsOk (c : Nat) : Bool := decide (1 ≤ c) && decide (c ≤ maxColumns)

/-- R20, R114: a `count` operand and the count of a run (log 13). -/
def countOk (n : Nat) : Bool := decide (1 ≤ n) && decide (n ≤ runCountMax)

/-- R131: a line whose runs, if it is a run sequence, are run-model values. -/
def Line.ok : Line → Bool
  | .row _ => true
  | .runs rs => rs.all fun r => countOk r.2

/-- R231: a run of the count/value coder. -/
def CvRun.ok (p : Params) (r : CvRun) : Bool := decide (r.sample.length = p.sampleBytes) && countOk r.count

/-- R72: the reserved opcodes. -/
def reservedOk (b : Byte) : Bool :=
  let n := b.toNat
  decide (n = 0x00) || (decide (0x03 ≤ n) && decide (n ≤ 0x0F)) || (decide (0x15 ≤ n) && decide (n ≤ 0x1F)) ||
  decide (n = 0x23) || (decide (0x27 ≤ n) && decide (n ≤ 0x2F)) || (decide (0x34 ≤ n) && decide (n ≤ 0x3F)) ||
  (decide (0x44 ≤ n) && decide (n ≤ 0x4F)) || (decide (0x53 ≤ n) && decide (n ≤ 0xFF))

/-- R92: the skipped bytes other than LF (log 15). -/
def whitespaceOk (b : Byte) : Bool :=
  decide (b = 0x00) || decide (b = 0x09) || decide (b = 0x0C) || decide (b = 0x0D) || decide (b = 0x20)

/-- R92: the illegal bytes, `~` among them where `>` does not follow. -/
def illegalOk (b : Byte) : Bool :=
  let n := b.toNat
  (decide (0x01 ≤ n) && decide (n ≤ 0x08)) || decide (n = 0x0B) || (decide (0x0E ≤ n) && decide (n ≤ 0x1F)) ||
  (decide (0x76 ≤ n) && decide (n ≤ 0x79)) || (decide (0x7B ≤ n) && decide (n ≤ 0x7D)) || decide (0x7E ≤ n)

/-- An assigned LZW string code or an illegal one: 258 to 4095 (R31). -/
def lzwCodeOk (k : Nat) : Bool := decide (firstFree ≤ k) && decide (k < lzwDictCap)

/-- The operands of an instruction are in their ranges. -/
def WellFormed (p : Params) : Instr → Bool
  | .rmSet _ n => countOk n
  | .bwInit o => orderOk o
  | .bwWrite _ w => widthOk w
  | .brInit o _ => orderOk o
  | .brRead w => widthOk w
  | .hufEncBegin c => columnsOk c
  | .hufEncLine l => l.ok
  | .hufDecBegin _ c => columnsOk c
  | .cvEnc rs _ => rs.all (CvRun.ok p)
  | .reservedOpcode b => reservedOk b
  | .lzwString k => lzwCodeOk k
  | .lzwIllegal k => lzwCodeOk k
  | .sbLength len => decide (len ≠ 0)
  | .pbRepeat h => decide (h ≠ 0)
  | .cvPacket v _ => decide (v.length = p.sampleBytes)
  | .a85Digit d => decide (d ≤ 84)
  | .a85Whitespace b => whitespaceOk b
  | .a85Illegal b => illegalOk b
  | _ => true

end Sys2Proof
end

