-- ==== Sys2Proof/Decode.lean ====
section
/-! DEFINITION. The decoders, total on every input: command words (R70 to R72), Huffman code words (R76, R77, R80 to R85),
LZW codes (R87), sub-block length bytes (R88), PackBits headers (R89), count/value packets (R90) and Ascii85 characters
(R91, R92); after them the encoder, and the reading of a row of spec/opcode_table.json as one word. -/

namespace Sys2Proof

open Sys2Proof.Machine

/-! ## Bit strings -/

/-- R8, R52: the low `w` bits of `v`, most significant first. -/
def msbBits (w v : Nat) : List Bool := (List.range w).map fun k => v.testBit (w - 1 - k)

/-- R52: the low `w` bits of `v`, least significant first. -/
def lsbBits (w v : Nat) : List Bool := (List.range w).map fun k => v.testBit k

/-- R8: the integer value of a bit string, the leftmost bit the most significant. -/
def msbValue (bits : List Bool) : Nat := bits.foldl (fun v b => 2 * v + b.toNat) 0

/-- The integer value of a bit string whose first bit is the least significant. -/
def lsbValue (bits : List Bool) : Nat := bits.foldr (fun b v => b.toNat + 2 * v) 0

/-! ## The Huffman code tables (R30) -/

/-- R80: the rows of table TerminatingWhite, in the order of their run values (bits, code, run). -/
def terminatingWhiteTable : List Entry :=
  ([ ⟨.terminatingWhite, 0x0035, 8, 0⟩, ⟨.terminatingWhite, 0x0007, 6, 1⟩, ⟨.terminatingWhite, 0x0007, 4, 2⟩,
    ⟨.terminatingWhite, 0x0008, 4, 3⟩, ⟨.terminatingWhite, 0x000B, 4, 4⟩, ⟨.terminatingWhite, 0x000C, 4, 5⟩,
    ⟨.terminatingWhite, 0x000E, 4, 6⟩, ⟨.terminatingWhite, 0x000F, 4, 7⟩, ⟨.terminatingWhite, 0x0013, 5, 8⟩,
    ⟨.terminatingWhite, 0x0014, 5, 9⟩, ⟨.terminatingWhite, 0x0007, 5, 10⟩, ⟨.terminatingWhite, 0x0008, 5, 11⟩,
    ⟨.terminatingWhite, 0x0008, 6, 12⟩, ⟨.terminatingWhite, 0x0003, 6, 13⟩, ⟨.terminatingWhite, 0x0034, 6, 14⟩,
    ⟨.terminatingWhite, 0x0035, 6, 15⟩ ] : List Entry) ++
  ([ ⟨.terminatingWhite, 0x002A, 6, 16⟩, ⟨.terminatingWhite, 0x002B, 6, 17⟩, ⟨.terminatingWhite, 0x0027, 7, 18⟩,
    ⟨.terminatingWhite, 0x000C, 7, 19⟩, ⟨.terminatingWhite, 0x0008, 7, 20⟩, ⟨.terminatingWhite, 0x0017, 7, 21⟩,
    ⟨.terminatingWhite, 0x0003, 7, 22⟩, ⟨.terminatingWhite, 0x0004, 7, 23⟩, ⟨.terminatingWhite, 0x0028, 7, 24⟩,
    ⟨.terminatingWhite, 0x002B, 7, 25⟩, ⟨.terminatingWhite, 0x0013, 7, 26⟩, ⟨.terminatingWhite, 0x0024, 7, 27⟩,
    ⟨.terminatingWhite, 0x0018, 7, 28⟩, ⟨.terminatingWhite, 0x0002, 8, 29⟩, ⟨.terminatingWhite, 0x0003, 8, 30⟩,
    ⟨.terminatingWhite, 0x001A, 8, 31⟩ ] : List Entry) ++
  ([ ⟨.terminatingWhite, 0x001B, 8, 32⟩, ⟨.terminatingWhite, 0x0012, 8, 33⟩, ⟨.terminatingWhite, 0x0013, 8, 34⟩,
    ⟨.terminatingWhite, 0x0014, 8, 35⟩, ⟨.terminatingWhite, 0x0015, 8, 36⟩, ⟨.terminatingWhite, 0x0016, 8, 37⟩,
    ⟨.terminatingWhite, 0x0017, 8, 38⟩, ⟨.terminatingWhite, 0x0028, 8, 39⟩, ⟨.terminatingWhite, 0x0029, 8, 40⟩,
    ⟨.terminatingWhite, 0x002A, 8, 41⟩, ⟨.terminatingWhite, 0x002B, 8, 42⟩, ⟨.terminatingWhite, 0x002C, 8, 43⟩,
    ⟨.terminatingWhite, 0x002D, 8, 44⟩, ⟨.terminatingWhite, 0x0004, 8, 45⟩, ⟨.terminatingWhite, 0x0005, 8, 46⟩,
    ⟨.terminatingWhite, 0x000A, 8, 47⟩ ] : List Entry) ++
  ([ ⟨.terminatingWhite, 0x000B, 8, 48⟩, ⟨.terminatingWhite, 0x0052, 8, 49⟩, ⟨.terminatingWhite, 0x0053, 8, 50⟩,
    ⟨.terminatingWhite, 0x0054, 8, 51⟩, ⟨.terminatingWhite, 0x0055, 8, 52⟩, ⟨.terminatingWhite, 0x0024, 8, 53⟩,
    ⟨.terminatingWhite, 0x0025, 8, 54⟩, ⟨.terminatingWhite, 0x0058, 8, 55⟩, ⟨.terminatingWhite, 0x0059, 8, 56⟩,
    ⟨.terminatingWhite, 0x005A, 8, 57⟩, ⟨.terminatingWhite, 0x005B, 8, 58⟩, ⟨.terminatingWhite, 0x004A, 8, 59⟩,
    ⟨.terminatingWhite, 0x004B, 8, 60⟩, ⟨.terminatingWhite, 0x0032, 8, 61⟩, ⟨.terminatingWhite, 0x0033, 8, 62⟩,
    ⟨.terminatingWhite, 0x0034, 8, 63⟩ ] : List Entry)

/-- R81: the rows of table TerminatingBlack, in the order of their run values (bits, code, run). -/
def terminatingBlackTable : List Entry :=
  ([ ⟨.terminatingBlack, 0x0037, 10, 0⟩, ⟨.terminatingBlack, 0x0002, 3, 1⟩, ⟨.terminatingBlack, 0x0003, 2, 2⟩,
    ⟨.terminatingBlack, 0x0002, 2, 3⟩, ⟨.terminatingBlack, 0x0003, 3, 4⟩, ⟨.terminatingBlack, 0x0003, 4, 5⟩,
    ⟨.terminatingBlack, 0x0002, 4, 6⟩, ⟨.terminatingBlack, 0x0003, 5, 7⟩, ⟨.terminatingBlack, 0x0005, 6, 8⟩,
    ⟨.terminatingBlack, 0x0004, 6, 9⟩, ⟨.terminatingBlack, 0x0004, 7, 10⟩, ⟨.terminatingBlack, 0x0005, 7, 11⟩,
    ⟨.terminatingBlack, 0x0007, 7, 12⟩, ⟨.terminatingBlack, 0x0004, 8, 13⟩, ⟨.terminatingBlack, 0x0007, 8, 14⟩,
    ⟨.terminatingBlack, 0x0018, 9, 15⟩ ] : List Entry) ++
  ([ ⟨.terminatingBlack, 0x0017, 10, 16⟩, ⟨.terminatingBlack, 0x0018, 10, 17⟩, ⟨.terminatingBlack, 0x0008, 10, 18⟩,
    ⟨.terminatingBlack, 0x0067, 11, 19⟩, ⟨.terminatingBlack, 0x0068, 11, 20⟩, ⟨.terminatingBlack, 0x006C, 11, 21⟩,
    ⟨.terminatingBlack, 0x0037, 11, 22⟩, ⟨.terminatingBlack, 0x0028, 11, 23⟩, ⟨.terminatingBlack, 0x0017, 11, 24⟩,
    ⟨.terminatingBlack, 0x0018, 11, 25⟩, ⟨.terminatingBlack, 0x00CA, 12, 26⟩, ⟨.terminatingBlack, 0x00CB, 12, 27⟩,
    ⟨.terminatingBlack, 0x00CC, 12, 28⟩, ⟨.terminatingBlack, 0x00CD, 12, 29⟩, ⟨.terminatingBlack, 0x0068, 12, 30⟩,
    ⟨.terminatingBlack, 0x0069, 12, 31⟩ ] : List Entry) ++
  ([ ⟨.terminatingBlack, 0x006A, 12, 32⟩, ⟨.terminatingBlack, 0x006B, 12, 33⟩, ⟨.terminatingBlack, 0x00D2, 12, 34⟩,
    ⟨.terminatingBlack, 0x00D3, 12, 35⟩, ⟨.terminatingBlack, 0x00D4, 12, 36⟩, ⟨.terminatingBlack, 0x00D5, 12, 37⟩,
    ⟨.terminatingBlack, 0x00D6, 12, 38⟩, ⟨.terminatingBlack, 0x00D7, 12, 39⟩, ⟨.terminatingBlack, 0x006C, 12, 40⟩,
    ⟨.terminatingBlack, 0x006D, 12, 41⟩, ⟨.terminatingBlack, 0x00DA, 12, 42⟩, ⟨.terminatingBlack, 0x00DB, 12, 43⟩,
    ⟨.terminatingBlack, 0x0054, 12, 44⟩, ⟨.terminatingBlack, 0x0055, 12, 45⟩, ⟨.terminatingBlack, 0x0056, 12, 46⟩,
    ⟨.terminatingBlack, 0x0057, 12, 47⟩ ] : List Entry) ++
  ([ ⟨.terminatingBlack, 0x0064, 12, 48⟩, ⟨.terminatingBlack, 0x0065, 12, 49⟩, ⟨.terminatingBlack, 0x0052, 12, 50⟩,
    ⟨.terminatingBlack, 0x0053, 12, 51⟩, ⟨.terminatingBlack, 0x0024, 12, 52⟩, ⟨.terminatingBlack, 0x0037, 12, 53⟩,
    ⟨.terminatingBlack, 0x0038, 12, 54⟩, ⟨.terminatingBlack, 0x0027, 12, 55⟩, ⟨.terminatingBlack, 0x0028, 12, 56⟩,
    ⟨.terminatingBlack, 0x0058, 12, 57⟩, ⟨.terminatingBlack, 0x0059, 12, 58⟩, ⟨.terminatingBlack, 0x002B, 12, 59⟩,
    ⟨.terminatingBlack, 0x002C, 12, 60⟩, ⟨.terminatingBlack, 0x005A, 12, 61⟩, ⟨.terminatingBlack, 0x0066, 12, 62⟩,
    ⟨.terminatingBlack, 0x0067, 12, 63⟩ ] : List Entry)

/-- R82: the rows of table MakeupWhite, in the order of their run values (bits, code, run). -/
def makeupWhiteTable : List Entry :=
  ([ ⟨.makeupWhite, 0x001B, 5, 64⟩, ⟨.makeupWhite, 0x0012, 5, 128⟩, ⟨.makeupWhite, 0x0017, 6, 192⟩,
    ⟨.makeupWhite, 0x0037, 7, 256⟩, ⟨.makeupWhite, 0x0036, 8, 320⟩, ⟨.makeupWhite, 0x0037, 8, 384⟩,
    ⟨.makeupWhite, 0x0064, 8, 448⟩, ⟨.makeupWhite, 0x0065, 8, 512⟩, ⟨.makeupWhite, 0x0068, 8, 576⟩,
    ⟨.makeupWhite, 0x0067, 8, 640⟩, ⟨.makeupWhite, 0x00CC, 9, 704⟩, ⟨.makeupWhite, 0x00CD, 9, 768⟩,
    ⟨.makeupWhite, 0x00D2, 9, 832⟩, ⟨.makeupWhite, 0x00D3, 9, 896⟩, ⟨.makeupWhite, 0x00D4, 9, 960⟩,
    ⟨.makeupWhite, 0x00D5, 9, 1024⟩ ] : List Entry) ++
  ([ ⟨.makeupWhite, 0x00D6, 9, 1088⟩, ⟨.makeupWhite, 0x00D7, 9, 1152⟩, ⟨.makeupWhite, 0x00D8, 9, 1216⟩,
    ⟨.makeupWhite, 0x00D9, 9, 1280⟩, ⟨.makeupWhite, 0x00DA, 9, 1344⟩, ⟨.makeupWhite, 0x00DB, 9, 1408⟩,
    ⟨.makeupWhite, 0x0098, 9, 1472⟩, ⟨.makeupWhite, 0x0099, 9, 1536⟩, ⟨.makeupWhite, 0x009A, 9, 1600⟩,
    ⟨.makeupWhite, 0x0018, 6, 1664⟩, ⟨.makeupWhite, 0x009B, 9, 1728⟩ ] : List Entry)

/-- R83: the rows of table MakeupBlack, in the order of their run values (bits, code, run). -/
def makeupBlackTable : List Entry :=
  ([ ⟨.makeupBlack, 0x000F, 10, 64⟩, ⟨.makeupBlack, 0x00C8, 12, 128⟩, ⟨.makeupBlack, 0x00C9, 12, 192⟩,
    ⟨.makeupBlack, 0x005B, 12, 256⟩, ⟨.makeupBlack, 0x0033, 12, 320⟩, ⟨.makeupBlack, 0x0034, 12, 384⟩,
    ⟨.makeupBlack, 0x0035, 12, 448⟩, ⟨.makeupBlack, 0x006C, 13, 512⟩, ⟨.makeupBlack, 0x006D, 13, 576⟩,
    ⟨.makeupBlack, 0x004A, 13, 640⟩, ⟨.makeupBlack, 0x004B, 13, 704⟩, ⟨.makeupBlack, 0x004C, 13, 768⟩,
    ⟨.makeupBlack, 0x004D, 13, 832⟩, ⟨.makeupBlack, 0x0072, 13, 896⟩, ⟨.makeupBlack, 0x0073, 13, 960⟩,
    ⟨.makeupBlack, 0x0074, 13, 1024⟩ ] : List Entry) ++
  ([ ⟨.makeupBlack, 0x0075, 13, 1088⟩, ⟨.makeupBlack, 0x0076, 13, 1152⟩, ⟨.makeupBlack, 0x0077, 13, 1216⟩,
    ⟨.makeupBlack, 0x0052, 13, 1280⟩, ⟨.makeupBlack, 0x0053, 13, 1344⟩, ⟨.makeupBlack, 0x0054, 13, 1408⟩,
    ⟨.makeupBlack, 0x0055, 13, 1472⟩, ⟨.makeupBlack, 0x005A, 13, 1536⟩, ⟨.makeupBlack, 0x005B, 13, 1600⟩,
    ⟨.makeupBlack, 0x0064, 13, 1664⟩, ⟨.makeupBlack, 0x0065, 13, 1728⟩ ] : List Entry)

/-- R84: the rows of table Extension, in the order of their run values (bits, code, run). -/
def extensionTable : List Entry :=
  ([ ⟨.extension, 0x0008, 11, 1792⟩, ⟨.extension, 0x000C, 11, 1856⟩, ⟨.extension, 0x000D, 11, 1920⟩,
    ⟨.extension, 0x0012, 12, 1984⟩, ⟨.extension, 0x0013, 12, 2048⟩, ⟨.extension, 0x0014, 12, 2112⟩,
    ⟨.extension, 0x0015, 12, 2176⟩, ⟨.extension, 0x0016, 12, 2240⟩, ⟨.extension, 0x0017, 12, 2304⟩,
    ⟨.extension, 0x001C, 12, 2368⟩, ⟨.extension, 0x001D, 12, 2432⟩, ⟨.extension, 0x001E, 12, 2496⟩,
    ⟨.extension, 0x001F, 12, 2560⟩ ] : List Entry)

/-- The instructions of `terminatingWhiteTable`'s rows, in the same order. -/
def terminatingWhiteInstrs : List Instr :=
  ([ .wTerm0, .wTerm1, .wTerm2, .wTerm3, .wTerm4, .wTerm5, .wTerm6, .wTerm7,
    .wTerm8, .wTerm9, .wTerm10, .wTerm11, .wTerm12, .wTerm13, .wTerm14, .wTerm15 ] : List Instr) ++
  ([ .wTerm16, .wTerm17, .wTerm18, .wTerm19, .wTerm20, .wTerm21, .wTerm22, .wTerm23,
    .wTerm24, .wTerm25, .wTerm26, .wTerm27, .wTerm28, .wTerm29, .wTerm30, .wTerm31 ] : List Instr) ++
  ([ .wTerm32, .wTerm33, .wTerm34, .wTerm35, .wTerm36, .wTerm37, .wTerm38, .wTerm39,
    .wTerm40, .wTerm41, .wTerm42, .wTerm43, .wTerm44, .wTerm45, .wTerm46, .wTerm47 ] : List Instr) ++
  ([ .wTerm48, .wTerm49, .wTerm50, .wTerm51, .wTerm52, .wTerm53, .wTerm54, .wTerm55,
    .wTerm56, .wTerm57, .wTerm58, .wTerm59, .wTerm60, .wTerm61, .wTerm62, .wTerm63 ] : List Instr)

/-- The instructions of `terminatingBlackTable`'s rows, in the same order. -/
def terminatingBlackInstrs : List Instr :=
  ([ .bTerm0, .bTerm1, .bTerm2, .bTerm3, .bTerm4, .bTerm5, .bTerm6, .bTerm7,
    .bTerm8, .bTerm9, .bTerm10, .bTerm11, .bTerm12, .bTerm13, .bTerm14, .bTerm15 ] : List Instr) ++
  ([ .bTerm16, .bTerm17, .bTerm18, .bTerm19, .bTerm20, .bTerm21, .bTerm22, .bTerm23,
    .bTerm24, .bTerm25, .bTerm26, .bTerm27, .bTerm28, .bTerm29, .bTerm30, .bTerm31 ] : List Instr) ++
  ([ .bTerm32, .bTerm33, .bTerm34, .bTerm35, .bTerm36, .bTerm37, .bTerm38, .bTerm39,
    .bTerm40, .bTerm41, .bTerm42, .bTerm43, .bTerm44, .bTerm45, .bTerm46, .bTerm47 ] : List Instr) ++
  ([ .bTerm48, .bTerm49, .bTerm50, .bTerm51, .bTerm52, .bTerm53, .bTerm54, .bTerm55,
    .bTerm56, .bTerm57, .bTerm58, .bTerm59, .bTerm60, .bTerm61, .bTerm62, .bTerm63 ] : List Instr)

/-- The instructions of `makeupWhiteTable`'s rows, in the same order. -/
def makeupWhiteInstrs : List Instr :=
  ([ .wMakeup64, .wMakeup128, .wMakeup192, .wMakeup256, .wMakeup320, .wMakeup384, .wMakeup448, .wMakeup512,
    .wMakeup576, .wMakeup640, .wMakeup704, .wMakeup768, .wMakeup832, .wMakeup896, .wMakeup960, .wMakeup1024 ] : List Instr) ++
  ([ .wMakeup1088, .wMakeup1152, .wMakeup1216, .wMakeup1280, .wMakeup1344, .wMakeup1408, .wMakeup1472, .wMakeup1536,
    .wMakeup1600, .wMakeup1664, .wMakeup1728 ] : List Instr)

/-- The instructions of `makeupBlackTable`'s rows, in the same order. -/
def makeupBlackInstrs : List Instr :=
  ([ .bMakeup64, .bMakeup128, .bMakeup192, .bMakeup256, .bMakeup320, .bMakeup384, .bMakeup448, .bMakeup512,
    .bMakeup576, .bMakeup640, .bMakeup704, .bMakeup768, .bMakeup832, .bMakeup896, .bMakeup960, .bMakeup1024 ] : List Instr) ++
  ([ .bMakeup1088, .bMakeup1152, .bMakeup1216, .bMakeup1280, .bMakeup1344, .bMakeup1408, .bMakeup1472, .bMakeup1536,
    .bMakeup1600, .bMakeup1664, .bMakeup1728 ] : List Instr)

/-- The instructions of `extensionTable`'s rows, in the same order. -/
def extensionInstrs : List Instr :=
  ([ .extMakeup1792, .extMakeup1856, .extMakeup1920, .extMakeup1984, .extMakeup2048, .extMakeup2112, .extMakeup2176, .extMakeup2240,
    .extMakeup2304, .extMakeup2368, .extMakeup2432, .extMakeup2496, .extMakeup2560 ] : List Instr)

/-- R85: the entry EOL, a member of both sets. -/
def eolEntry : Entry := ⟨.eol, 0x0001, 12, 0⟩

/-- R134: the terminating table of a colour. -/
def termTable : Polarity → List Entry
  | .white => terminatingWhiteTable
  | .black => terminatingBlackTable

/-- R134: the makeup table of a colour. -/
def makeupTable : Polarity → List Entry
  | .white => makeupWhiteTable
  | .black => makeupBlackTable

/-- R134: `TermCode(c, n)`, for `n` from 0 to 63. -/
def termCode (c : Polarity) (n : Nat) : Entry := (termTable c).getD n eolEntry

/-- R134: `MakeupCode(c, m)`, for `m` a multiple of 64 from 64 to 2560. -/
def makeupCode (c : Polarity) (m : Nat) : Entry :=
  if m ≤ 1728 then (makeupTable c).getD (m / 64 - 1) eolEntry
  else extensionTable.getD ((m - 1792) / 64) eolEntry

/-- R141: `Set(c)`, the code set of a colour. -/
def codeSet (c : Polarity) : List Entry :=
  termTable c ++ makeupTable c ++ extensionTable ++ [eolEntry]

/-- R141: the classes whose entries a colour's set holds. -/
def CodeClass.inSet (c : Polarity) : CodeClass → Bool
  | .terminatingWhite | .makeupWhite => c == .white
  | .terminatingBlack | .makeupBlack => c == .black
  | .extension | .eol => true

/-- R141, R44: `Lookup(c, len, code)`, the entry of `Set(c)` with exactly that length and code. -/
def lookupCode (c : Polarity) (len code : Nat) : Option Entry :=
  (codeSet c).find? fun e => e.bitLength == len && e.code.toNat == code

/-- R77: the code word of an entry in stream order. -/
def Entry.bits (e : Entry) : List Bool := msbBits e.bitLength e.code.toNat

/-- R143: the bits go one by one into the shift buffer (`len`, `code`), with a lookup after each; `fuel` is how many more
bits the buffer takes. -/
def matchCode (c : Polarity) : Nat → Nat → Nat → List Bool → Except DecodeError Entry
  | 0, _, _, _ => .error .noCode
  | _ + 1, _, _, [] => .error .endOfInput
  | fuel + 1, len, code, b :: bs =>
    match lookupCode c (len + 1) (2 * code + b.toNat) with
    | some e => .ok e
    | none => matchCode c fuel (len + 1) (2 * code + b.toNat) bs

/-- R143, R145: read one code word of `Set(c)` from the front of the bits. -/
def decodeEntry (c : Polarity) (bits : List Bool) : Except DecodeError Entry :=
  matchCode c hufMaxCodeLen 0 0 bits

/-- The instruction of a code-table row. -/
def Entry.instr (e : Entry) : Instr :=
  match e.cls with
  | .terminatingWhite => terminatingWhiteInstrs.getD e.runValue .eol
  | .terminatingBlack => terminatingBlackInstrs.getD e.runValue .eol
  | .makeupWhite => makeupWhiteInstrs.getD (e.runValue / 64 - 1) .eol
  | .makeupBlack => makeupBlackInstrs.getD (e.runValue / 64 - 1) .eol
  | .extension => extensionInstrs.getD ((e.runValue - 1792) / 64) .eol
  | .eol => .eol

/-- The code-table row of an instruction that is a Huffman code word. -/
def codeEntry (i : Instr) : Option Entry :=
  match i with
  | .rmSet _ _ => none
  | .rmGet => none
  | .bwInit _ => none
  | .bwWrite _ _ => none
  | .bwFlush => none
  | .brInit _ _ => none
  | .brRead _ => none
  | .hufEncBegin _ => none
  | .hufEncLine _ => none
  | .hufEncEnd => none
  | .hufDecBegin _ _ => none
  | .hufDecLine => none
  | .hufDecPage _ => none
  | .lzwEnc _ => none
  | .lzwDec _ _ => none
  | .sbPack _ => none
  | .sbUnpack _ => none
  | .pbEnc _ => none
  | .pbDec _ _ => none
  | .cvEnc _ _ => none
  | .cvDec _ _ => none
  | .a85EncByte _ => none
  | .a85EncEnd => none
  | .a85Dec _ => none
  | .reservedOpcode _ => none
  | .wTerm0 => some (termCode Polarity.white 0)
  | .wTerm1 => some (termCode Polarity.white 1)
  | .wTerm2 => some (termCode Polarity.white 2)
  | .wTerm3 => some (termCode Polarity.white 3)
  | .wTerm4 => some (termCode Polarity.white 4)
  | .wTerm5 => some (termCode Polarity.white 5)
  | .wTerm6 => some (termCode Polarity.white 6)
  | .wTerm7 => some (termCode Polarity.white 7)
  | .wTerm8 => some (termCode Polarity.white 8)
  | .wTerm9 => some (termCode Polarity.white 9)
  | .wTerm10 => some (termCode Polarity.white 10)
  | .wTerm11 => some (termCode Polarity.white 11)
  | .wTerm12 => some (termCode Polarity.white 12)
  | .wTerm13 => some (termCode Polarity.white 13)
  | .wTerm14 => some (termCode Polarity.white 14)
  | .wTerm15 => some (termCode Polarity.white 15)
  | .wTerm16 => some (termCode Polarity.white 16)
  | .wTerm17 => some (termCode Polarity.white 17)
  | .wTerm18 => some (termCode Polarity.white 18)
  | .wTerm19 => some (termCode Polarity.white 19)
  | .wTerm20 => some (termCode Polarity.white 20)
  | .wTerm21 => some (termCode Polarity.white 21)
  | .wTerm22 => some (termCode Polarity.white 22)
  | .wTerm23 => some (termCode Polarity.white 23)
  | .wTerm24 => some (termCode Polarity.white 24)
  | .wTerm25 => some (termCode Polarity.white 25)
  | .wTerm26 => some (termCode Polarity.white 26)
  | .wTerm27 => some (termCode Polarity.white 27)
  | .wTerm28 => some (termCode Polarity.white 28)
  | .wTerm29 => some (termCode Polarity.white 29)
  | .wTerm30 => some (termCode Polarity.white 30)
  | .wTerm31 => some (termCode Polarity.white 31)
  | .wTerm32 => some (termCode Polarity.white 32)
  | .wTerm33 => some (termCode Polarity.white 33)
  | .wTerm34 => some (termCode Polarity.white 34)
  | .wTerm35 => some (termCode Polarity.white 35)
  | .wTerm36 => some (termCode Polarity.white 36)
  | .wTerm37 => some (termCode Polarity.white 37)
  | .wTerm38 => some (termCode Polarity.white 38)
  | .wTerm39 => some (termCode Polarity.white 39)
  | .wTerm40 => some (termCode Polarity.white 40)
  | .wTerm41 => some (termCode Polarity.white 41)
  | .wTerm42 => some (termCode Polarity.white 42)
  | .wTerm43 => some (termCode Polarity.white 43)
  | .wTerm44 => some (termCode Polarity.white 44)
  | .wTerm45 => some (termCode Polarity.white 45)
  | .wTerm46 => some (termCode Polarity.white 46)
  | .wTerm47 => some (termCode Polarity.white 47)
  | .wTerm48 => some (termCode Polarity.white 48)
  | .wTerm49 => some (termCode Polarity.white 49)
  | .wTerm50 => some (termCode Polarity.white 50)
  | .wTerm51 => some (termCode Polarity.white 51)
  | .wTerm52 => some (termCode Polarity.white 52)
  | .wTerm53 => some (termCode Polarity.white 53)
  | .wTerm54 => some (termCode Polarity.white 54)
  | .wTerm55 => some (termCode Polarity.white 55)
  | .wTerm56 => some (termCode Polarity.white 56)
  | .wTerm57 => some (termCode Polarity.white 57)
  | .wTerm58 => some (termCode Polarity.white 58)
  | .wTerm59 => some (termCode Polarity.white 59)
  | .wTerm60 => some (termCode Polarity.white 60)
  | .wTerm61 => some (termCode Polarity.white 61)
  | .wTerm62 => some (termCode Polarity.white 62)
  | .wTerm63 => some (termCode Polarity.white 63)
  | .wMakeup64 => some (makeupCode Polarity.white 64)
  | .wMakeup128 => some (makeupCode Polarity.white 128)
  | .wMakeup192 => some (makeupCode Polarity.white 192)
  | .wMakeup256 => some (makeupCode Polarity.white 256)
  | .wMakeup320 => some (makeupCode Polarity.white 320)
  | .wMakeup384 => some (makeupCode Polarity.white 384)
  | .wMakeup448 => some (makeupCode Polarity.white 448)
  | .wMakeup512 => some (makeupCode Polarity.white 512)
  | .wMakeup576 => some (makeupCode Polarity.white 576)
  | .wMakeup640 => some (makeupCode Polarity.white 640)
  | .wMakeup704 => some (makeupCode Polarity.white 704)
  | .wMakeup768 => some (makeupCode Polarity.white 768)
  | .wMakeup832 => some (makeupCode Polarity.white 832)
  | .wMakeup896 => some (makeupCode Polarity.white 896)
  | .wMakeup960 => some (makeupCode Polarity.white 960)
  | .wMakeup1024 => some (makeupCode Polarity.white 1024)
  | .wMakeup1088 => some (makeupCode Polarity.white 1088)
  | .wMakeup1152 => some (makeupCode Polarity.white 1152)
  | .wMakeup1216 => some (makeupCode Polarity.white 1216)
  | .wMakeup1280 => some (makeupCode Polarity.white 1280)
  | .wMakeup1344 => some (makeupCode Polarity.white 1344)
  | .wMakeup1408 => some (makeupCode Polarity.white 1408)
  | .wMakeup1472 => some (makeupCode Polarity.white 1472)
  | .wMakeup1536 => some (makeupCode Polarity.white 1536)
  | .wMakeup1600 => some (makeupCode Polarity.white 1600)
  | .wMakeup1664 => some (makeupCode Polarity.white 1664)
  | .wMakeup1728 => some (makeupCode Polarity.white 1728)
  | .extMakeup1792 => some (makeupCode Polarity.white 1792)
  | .extMakeup1856 => some (makeupCode Polarity.white 1856)
  | .extMakeup1920 => some (makeupCode Polarity.white 1920)
  | .extMakeup1984 => some (makeupCode Polarity.white 1984)
  | .extMakeup2048 => some (makeupCode Polarity.white 2048)
  | .extMakeup2112 => some (makeupCode Polarity.white 2112)
  | .extMakeup2176 => some (makeupCode Polarity.white 2176)
  | .extMakeup2240 => some (makeupCode Polarity.white 2240)
  | .extMakeup2304 => some (makeupCode Polarity.white 2304)
  | .extMakeup2368 => some (makeupCode Polarity.white 2368)
  | .extMakeup2432 => some (makeupCode Polarity.white 2432)
  | .extMakeup2496 => some (makeupCode Polarity.white 2496)
  | .extMakeup2560 => some (makeupCode Polarity.white 2560)
  | .eol => some eolEntry
  | .bTerm0 => some (termCode Polarity.black 0)
  | .bTerm1 => some (termCode Polarity.black 1)
  | .bTerm2 => some (termCode Polarity.black 2)
  | .bTerm3 => some (termCode Polarity.black 3)
  | .bTerm4 => some (termCode Polarity.black 4)
  | .bTerm5 => some (termCode Polarity.black 5)
  | .bTerm6 => some (termCode Polarity.black 6)
  | .bTerm7 => some (termCode Polarity.black 7)
  | .bTerm8 => some (termCode Polarity.black 8)
  | .bTerm9 => some (termCode Polarity.black 9)
  | .bTerm10 => some (termCode Polarity.black 10)
  | .bTerm11 => some (termCode Polarity.black 11)
  | .bTerm12 => some (termCode Polarity.black 12)
  | .bTerm13 => some (termCode Polarity.black 13)
  | .bTerm14 => some (termCode Polarity.black 14)
  | .bTerm15 => some (termCode Polarity.black 15)
  | .bTerm16 => some (termCode Polarity.black 16)
  | .bTerm17 => some (termCode Polarity.black 17)
  | .bTerm18 => some (termCode Polarity.black 18)
  | .bTerm19 => some (termCode Polarity.black 19)
  | .bTerm20 => some (termCode Polarity.black 20)
  | .bTerm21 => some (termCode Polarity.black 21)
  | .bTerm22 => some (termCode Polarity.black 22)
  | .bTerm23 => some (termCode Polarity.black 23)
  | .bTerm24 => some (termCode Polarity.black 24)
  | .bTerm25 => some (termCode Polarity.black 25)
  | .bTerm26 => some (termCode Polarity.black 26)
  | .bTerm27 => some (termCode Polarity.black 27)
  | .bTerm28 => some (termCode Polarity.black 28)
  | .bTerm29 => some (termCode Polarity.black 29)
  | .bTerm30 => some (termCode Polarity.black 30)
  | .bTerm31 => some (termCode Polarity.black 31)
  | .bTerm32 => some (termCode Polarity.black 32)
  | .bTerm33 => some (termCode Polarity.black 33)
  | .bTerm34 => some (termCode Polarity.black 34)
  | .bTerm35 => some (termCode Polarity.black 35)
  | .bTerm36 => some (termCode Polarity.black 36)
  | .bTerm37 => some (termCode Polarity.black 37)
  | .bTerm38 => some (termCode Polarity.black 38)
  | .bTerm39 => some (termCode Polarity.black 39)
  | .bTerm40 => some (termCode Polarity.black 40)
  | .bTerm41 => some (termCode Polarity.black 41)
  | .bTerm42 => some (termCode Polarity.black 42)
  | .bTerm43 => some (termCode Polarity.black 43)
  | .bTerm44 => some (termCode Polarity.black 44)
  | .bTerm45 => some (termCode Polarity.black 45)
  | .bTerm46 => some (termCode Polarity.black 46)
  | .bTerm47 => some (termCode Polarity.black 47)
  | .bTerm48 => some (termCode Polarity.black 48)
  | .bTerm49 => some (termCode Polarity.black 49)
  | .bTerm50 => some (termCode Polarity.black 50)
  | .bTerm51 => some (termCode Polarity.black 51)
  | .bTerm52 => some (termCode Polarity.black 52)
  | .bTerm53 => some (termCode Polarity.black 53)
  | .bTerm54 => some (termCode Polarity.black 54)
  | .bTerm55 => some (termCode Polarity.black 55)
  | .bTerm56 => some (termCode Polarity.black 56)
  | .bTerm57 => some (termCode Polarity.black 57)
  | .bTerm58 => some (termCode Polarity.black 58)
  | .bTerm59 => some (termCode Polarity.black 59)
  | .bTerm60 => some (termCode Polarity.black 60)
  | .bTerm61 => some (termCode Polarity.black 61)
  | .bTerm62 => some (termCode Polarity.black 62)
  | .bTerm63 => some (termCode Polarity.black 63)
  | .bMakeup64 => some (makeupCode Polarity.black 64)
  | .bMakeup128 => some (makeupCode Polarity.black 128)
  | .bMakeup192 => some (makeupCode Polarity.black 192)
  | .bMakeup256 => some (makeupCode Polarity.black 256)
  | .bMakeup320 => some (makeupCode Polarity.black 320)
  | .bMakeup384 => some (makeupCode Polarity.black 384)
  | .bMakeup448 => some (makeupCode Polarity.black 448)
  | .bMakeup512 => some (makeupCode Polarity.black 512)
  | .bMakeup576 => some (makeupCode Polarity.black 576)
  | .bMakeup640 => some (makeupCode Polarity.black 640)
  | .bMakeup704 => some (makeupCode Polarity.black 704)
  | .bMakeup768 => some (makeupCode Polarity.black 768)
  | .bMakeup832 => some (makeupCode Polarity.black 832)
  | .bMakeup896 => some (makeupCode Polarity.black 896)
  | .bMakeup960 => some (makeupCode Polarity.black 960)
  | .bMakeup1024 => some (makeupCode Polarity.black 1024)
  | .bMakeup1088 => some (makeupCode Polarity.black 1088)
  | .bMakeup1152 => some (makeupCode Polarity.black 1152)
  | .bMakeup1216 => some (makeupCode Polarity.black 1216)
  | .bMakeup1280 => some (makeupCode Polarity.black 1280)
  | .bMakeup1344 => some (makeupCode Polarity.black 1344)
  | .bMakeup1408 => some (makeupCode Polarity.black 1408)
  | .bMakeup1472 => some (makeupCode Polarity.black 1472)
  | .bMakeup1536 => some (makeupCode Polarity.black 1536)
  | .bMakeup1600 => some (makeupCode Polarity.black 1600)
  | .bMakeup1664 => some (makeupCode Polarity.black 1664)
  | .bMakeup1728 => some (makeupCode Polarity.black 1728)
  | .lzwLiteral _ => none
  | .lzwClear => none
  | .lzwEnd => none
  | .lzwString _ => none
  | .lzwNext => none
  | .lzwIllegal _ => none
  | .sbLength _ => none
  | .sbTerminator => none
  | .pbLiteral _ => none
  | .pbIllegal80 => none
  | .pbRepeat _ => none
  | .cvPacket _ _ => none
  | .a85Digit _ => none
  | .a85Zero => none
  | .a85End => none
  | .a85Linebreak => none
  | .a85Whitespace _ => none
  | .a85Illegal _ => none

/-! ## The other stream tokens -/

/-- R87, R190: what a code value stands for, given whether a previous code exists and the register `next`. -/
def decodeLzw (prevKnown : Bool) (next k : Nat) : LzwTok :=
  if k = clearCode then .clear
  else if k = endCode then .stop
  else if k < 256 then .literal (BitVec.ofNat 8 k)
  else if !prevKnown then .illegal k
  else if k < next then .string k
  else if k = next then .next
  else .illegal k

/-- R88: what a length byte stands for. -/
def decodeSb (b : Byte) : SbTok := if b = 0 then .terminator else .length b

/-- R89: what a PackBits header stands for. -/
def decodePb (h : Byte) : PbTok :=
  if h.toNat ≤ 0x7F then .literal (h.setWidth 7)
  else if h = 0x80 then .illegal80
  else .rep (h.setWidth 7)

/-- R90: the value bytes and the count byte of the packet at the front of the bytes. -/
def decodeCv (sampleBytes : Nat) (bytes : List Byte) : Option (List Byte × Byte) :=
  match bytes.drop sampleBytes with
  | k :: _ => some (bytes.take sampleBytes, k)
  | [] => none

/-- R91, R92, R258: what a character stands for, given the byte after it. LF is the row A85_LINEBREAK and the other
skipped bytes the row A85_WHITESPACE (log 15). -/
def decodeA85 (c : Byte) (follow : Option Byte) : A85Tok :=
  if c = 0x0A then .linebreak
  else if c = 0x00 ∨ c = 0x09 ∨ c = 0x0C ∨ c = 0x0D ∨ c = 0x20 then .whitespace c
  else if c = 0x7E then (if follow = some 0x3E then .stop else .illegal c)
  else if c = 0x7A then .zero
  else if c.toNat < 0x21 ∨ 0x75 < c.toNat then .illegal c
  else .digit (c.toNat - 33)

/-- The instruction of an LZW token. -/
def LzwTok.instr : LzwTok → Instr
  | .literal c => .lzwLiteral c
  | .clear => .lzwClear
  | .stop => .lzwEnd
  | .string k => .lzwString k
  | .next => .lzwNext
  | .illegal k => .lzwIllegal k

/-- The instruction of a sub-block token. -/
def SbTok.instr : SbTok → Instr
  | .length len => .sbLength len
  | .terminator => .sbTerminator

/-- The instruction of a PackBits token. -/
def PbTok.instr : PbTok → Instr
  | .literal n => .pbLiteral n
  | .illegal80 => .pbIllegal80
  | .rep h => .pbRepeat h

/-- The instruction of an Ascii85 token. -/
def A85Tok.instr : A85Tok → Instr
  | .digit d => .a85Digit d
  | .zero => .a85Zero
  | .stop => .a85End
  | .linebreak => .a85Linebreak
  | .whitespace b => .a85Whitespace b
  | .illegal b => .a85Illegal b

/-! ## Command words (R71) -/

/-- R71: the opcode of each operation. -/
def Opcode.byte : Opcode → Byte
  | .rmSet => 0x01 | .rmGet => 0x02
  | .bwInit => 0x10 | .bwWrite => 0x11 | .bwFlush => 0x12 | .brInit => 0x13 | .brRead => 0x14
  | .hufEncBegin => 0x20 | .hufEncLine => 0x21 | .hufEncEnd => 0x22
  | .hufDecBegin => 0x24 | .hufDecLine => 0x25 | .hufDecPage => 0x26
  | .lzwEnc => 0x30 | .lzwDec => 0x31 | .sbPack => 0x32 | .sbUnpack => 0x33
  | .pbEnc => 0x40 | .pbDec => 0x41 | .cvEnc => 0x42 | .cvDec => 0x43
  | .a85EncByte => 0x50 | .a85EncEnd => 0x51 | .a85Dec => 0x52

/-- R71: the rows of the opcode map, by opcode. -/
def opcodeTable : List (Byte × Opcode) :=
  [(0x01, .rmSet), (0x02, .rmGet), (0x10, .bwInit), (0x11, .bwWrite), (0x12, .bwFlush), (0x13, .brInit), (0x14, .brRead),
    (0x20, .hufEncBegin), (0x21, .hufEncLine), (0x22, .hufEncEnd), (0x24, .hufDecBegin), (0x25, .hufDecLine),
    (0x26, .hufDecPage), (0x30, .lzwEnc), (0x31, .lzwDec), (0x32, .sbPack), (0x33, .sbUnpack), (0x40, .pbEnc),
    (0x41, .pbDec), (0x42, .cvEnc), (0x43, .cvDec), (0x50, .a85EncByte), (0x51, .a85EncEnd), (0x52, .a85Dec)]

/-- R71, R72: the operation of an opcode byte, none for a reserved one. -/
def decodeOpcode (b : Byte) : Option Opcode := (opcodeTable.find? fun r => r.1 == b).map (·.2)

/-- R71: an operation with its operand values, none where they are not of the kinds the operation takes. A `u16` or `u8`
operand is a number in its range. -/
def buildInstr : Opcode → List Operand → Option Instr
  | .rmSet, [.sample p, .num n] => some (.rmSet p n)
  | .rmGet, [] => some .rmGet
  | .bwInit, [.num o] => some (.bwInit o)
  | .bwWrite, [.num v, .num w] => if v < 65536 then some (.bwWrite (BitVec.ofNat 16 v) w) else none
  | .bwFlush, [] => some .bwFlush
  | .brInit, [.num o, .bytes i] => some (.brInit o i)
  | .brRead, [.num w] => some (.brRead w)
  | .hufEncBegin, [.num c] => some (.hufEncBegin c)
  | .hufEncLine, [.line l] => some (.hufEncLine l)
  | .hufEncEnd, [] => some .hufEncEnd
  | .hufDecBegin, [.bytes i, .num c] => some (.hufDecBegin i c)
  | .hufDecLine, [] => some .hufDecLine
  | .hufDecPage, [.num r] => some (.hufDecPage r)
  | .lzwEnc, [.bytes i] => some (.lzwEnc i)
  | .lzwDec, [.bytes i, .num n] => some (.lzwDec i n)
  | .sbPack, [.bytes i] => some (.sbPack i)
  | .sbUnpack, [.bytes i] => some (.sbUnpack i)
  | .pbEnc, [.bytes i] => some (.pbEnc i)
  | .pbDec, [.bytes i, .num n] => some (.pbDec i n)
  | .cvEnc, [.runs rs, .num n] => some (.cvEnc rs n)
  | .cvDec, [.bytes i, .num n] => some (.cvDec i n)
  | .a85EncByte, [.num b] => if b < 256 then some (.a85EncByte (BitVec.ofNat 8 b)) else none
  | .a85EncEnd, [] => some .a85EncEnd
  | .a85Dec, [.bytes i] => some (.a85Dec i)
  | _, _ => none

/-- R71, R72: a command word with its operand values; a reserved opcode is an instruction of its own, whatever the operands. -/
def decodeCommand (opcode : Byte) (operands : List Operand) : Except DecodeError Instr :=
  match decodeOpcode opcode with
  | none => .ok (.reservedOpcode opcode)
  | some op =>
    match buildInstr op operands with
    | some i => .ok i
    | none => .error .operands

/-- The decoder: what the block reads from what it is shown. -/
def decode : Code → Except DecodeError Instr
  | .command opcode operands => decodeCommand opcode operands
  | .huf c bits =>
    match decodeEntry c bits with
    | .ok e => .ok e.instr
    | .error r => .error r
  | .lzw prevKnown next value => .ok (decodeLzw prevKnown next value).instr
  | .subBlock b => .ok (decodeSb b).instr
  | .packBits h => .ok (decodePb h).instr
  | .countValue n bytes =>
    match decodeCv n bytes with
    | some (v, k) => .ok (.cvPacket v k)
    | none => .error .endOfInput
  | .ascii85 c follow => .ok (decodeA85 c follow).instr

/-! ## The encoder -/

/-- R71: the command word and the operand values of an operation, none for a token. -/
def encodeCommand : Instr → Option Command
  | .rmSet p n => some ⟨Opcode.byte .rmSet, [.sample p, .num n]⟩
  | .rmGet => some ⟨Opcode.byte .rmGet, []⟩
  | .bwInit o => some ⟨Opcode.byte .bwInit, [.num o]⟩
  | .bwWrite v w => some ⟨Opcode.byte .bwWrite, [.num v.toNat, .num w]⟩
  | .bwFlush => some ⟨Opcode.byte .bwFlush, []⟩
  | .brInit o i => some ⟨Opcode.byte .brInit, [.num o, .bytes i]⟩
  | .brRead w => some ⟨Opcode.byte .brRead, [.num w]⟩
  | .hufEncBegin c => some ⟨Opcode.byte .hufEncBegin, [.num c]⟩
  | .hufEncLine l => some ⟨Opcode.byte .hufEncLine, [.line l]⟩
  | .hufEncEnd => some ⟨Opcode.byte .hufEncEnd, []⟩
  | .hufDecBegin i c => some ⟨Opcode.byte .hufDecBegin, [.bytes i, .num c]⟩
  | .hufDecLine => some ⟨Opcode.byte .hufDecLine, []⟩
  | .hufDecPage r => some ⟨Opcode.byte .hufDecPage, [.num r]⟩
  | .lzwEnc i => some ⟨Opcode.byte .lzwEnc, [.bytes i]⟩
  | .lzwDec i n => some ⟨Opcode.byte .lzwDec, [.bytes i, .num n]⟩
  | .sbPack i => some ⟨Opcode.byte .sbPack, [.bytes i]⟩
  | .sbUnpack i => some ⟨Opcode.byte .sbUnpack, [.bytes i]⟩
  | .pbEnc i => some ⟨Opcode.byte .pbEnc, [.bytes i]⟩
  | .pbDec i n => some ⟨Opcode.byte .pbDec, [.bytes i, .num n]⟩
  | .cvEnc rs n => some ⟨Opcode.byte .cvEnc, [.runs rs, .num n]⟩
  | .cvDec i n => some ⟨Opcode.byte .cvDec, [.bytes i, .num n]⟩
  | .a85EncByte b => some ⟨Opcode.byte .a85EncByte, [.num b.toNat]⟩
  | .a85EncEnd => some ⟨Opcode.byte .a85EncEnd, []⟩
  | .a85Dec i => some ⟨Opcode.byte .a85Dec, [.bytes i]⟩
  | .reservedOpcode b => some ⟨b, []⟩
  | _ => none

/-- The set in which the encoder shows an entry: black for the black tables, white for the rest; an Extension code and EOL
stand in both (R141, log 26). -/
def Entry.colour (e : Entry) : Polarity :=
  match e.cls with
  | .terminatingBlack | .makeupBlack => .black
  | _ => .white

/-- The stream piece of a token that is no Huffman code word. An LZW code is shown with the registers under which it is read
so: a string with `next` above it, an illegal code with no previous code. -/
def encodeToken : Instr → Option Code
  | .lzwLiteral c => some (.lzw false firstFree c.toNat)
  | .lzwClear => some (.lzw false firstFree clearCode)
  | .lzwEnd => some (.lzw false firstFree endCode)
  | .lzwString k => some (.lzw true (k + 1) k)
  | .lzwNext => some (.lzw true firstFree firstFree)
  | .lzwIllegal k => some (.lzw false firstFree k)
  | .sbLength len => some (.subBlock len)
  | .sbTerminator => some (.subBlock 0)
  | .pbLiteral n => some (.packBits (n.setWidth 8))
  | .pbIllegal80 => some (.packBits 0x80)
  | .pbRepeat h => some (.packBits (0x80#8 ||| h.setWidth 8))
  | .cvPacket v k => some (.countValue v.length (v ++ [k]))
  | .a85Digit d => some (.ascii85 (BitVec.ofNat 8 (33 + d)) none)
  | .a85Zero => some (.ascii85 0x7A none)
  | .a85End => some (.ascii85 0x7E (some 0x3E))
  | .a85Linebreak => some (.ascii85 0x0A none)
  | .a85Whitespace b => some (.ascii85 b none)
  | .a85Illegal b => some (.ascii85 b none)
  | _ => none

/-- The encoder: the command or the stream piece of an instruction. -/
def encode (i : Instr) : Code :=
  match encodeCommand i with
  | some c => .command c.opcode c.operands
  | none =>
    match codeEntry i with
    | some e => .huf e.colour e.bits
    | none => (encodeToken i).getD (.command 0 [])

/-! ## A row of spec/opcode_table.json as one word -/

/-- The operand values of zeros an operation takes. -/
def Opcode.zeroOperands : Opcode → List Operand
  | .rmSet => [.sample (.index 0), .num 0]
  | .rmGet | .bwFlush | .hufEncEnd | .hufDecLine | .a85EncEnd => []
  | .bwInit | .brRead | .hufEncBegin | .hufDecPage | .a85EncByte => [.num 0]
  | .bwWrite => [.num 0, .num 0]
  | .brInit => [.num 0, .bytes []]
  | .hufEncLine => [.line (.row [])]
  | .hufDecBegin | .lzwDec | .pbDec | .cvDec => [.bytes [], .num 0]
  | .lzwEnc | .sbPack | .sbUnpack | .pbEnc | .a85Dec => [.bytes []]
  | .cvEnc => [.runs [], .num 0]

/-- How many bits the table's reader gives a Huffman row: it reads small numbers of the row's remarks (the length, the run
value) as bit positions (log 18). -/
def Entry.tableBits (e : Entry) : Nat :=
  if e.cls = .eol then e.bitLength
  else if e.bitLength ≤ e.runValue ∧ e.runValue < 32 then e.runValue + 1
  else if 512 ≤ e.runValue then e.bitLength + 1
  else e.bitLength

/-- Every code-table entry, in the order of spec/opcode_table.json. -/
def allEntries : List Entry :=
  terminatingWhiteTable ++ makeupWhiteTable ++ terminatingBlackTable ++ makeupBlackTable ++ extensionTable ++ [eolEntry]

/-- The first Huffman row whose `code` is `w`, among those the table gives `nbits` bits, else among those whose code word
fills as many bytes, else among those that fit (log 18). -/
def tableEntry (nbits w : Nat) : Option Entry :=
  let fits := allEntries.filter fun e => e.code.toNat == w
  (fits.find? fun e => (e.tableBits + 7) / 8 * 8 == nbits).orElse fun _ =>
    (fits.find? fun e => (e.bitLength + 7) / 8 * 8 == nbits).orElse fun _ =>
      fits.find? fun e => decide (e.bitLength ≤ nbits)

/-- The rows that are tokens of the byte streams and of the LZW stream, as the table numbers them. -/
def tableToken (nbits w : Nat) : Option Code :=
  if nbits = 8 ∧ w = 0x00 then some (.subBlock 0)
  else if nbits = 8 ∧ w = 0x80 then some (.packBits 0x80)
  else if nbits = 8 ∧ w = 0x7A then some (.ascii85 0x7A none)
  else if nbits = 16 ∧ w = 0x7E3E then some (.ascii85 0x7E (some 0x3E))
  else if nbits = 16 ∧ 0x100 ≤ w ∧ w < 0x1000 then some (.lzw false firstFree w)
  else none

/-- What the block is shown for a word of the table: a word that is an opcode is a command with operands of zeros; other
words are stream tokens; a byte that is neither is a reserved opcode. One word can stand in several rows of different units,
and only one of them is answered (log 18). -/
def codeOfTableWord (nbits w : Nat) : Option Code :=
  match (if nbits = 8 ∧ w < 256 then decodeOpcode (BitVec.ofNat 8 w) else none) with
  | some op => some (.command op.byte op.zeroOperands)
  | none =>
    match tableEntry nbits w with
    | some e => some (.huf e.colour e.bits)
    | none =>
      match tableToken nbits w with
      | some c => some c
      | none => if nbits = 8 ∧ w < 256 then some (.command (BitVec.ofNat 8 w) []) else none

/-- The instruction the decoder reads from a word numbered as spec/opcode_table.json numbers it. -/
def decodeTableWord (nbits w : Nat) : Option Instr :=
  match codeOfTableWord nbits w with
  | some c => (decode c).toOption
  | none => none

end Sys2Proof
end

