-- ==== Sys2Proof/Machine/State.lean ====
section
/-! DEFINITION. The state of one context of the block: the run-model register, the status register, the open sessions, the
operation in progress, and the host's and the environment's side (the commands issued, the result delivered, the allocation
draws). Every field is plain data. INVENTORY.md lists each register with its rule and reset value. -/

namespace Sys2Proof.Machine

/-- Why the machine stops with a fault. No operation begun in a state whose contexts are well formed does. -/
inductive Fault where
  /-- Raised by the LZW decoder where the walk of R33 meets an entry that is not written (R42); safe (log 23). -/
  | dictionaryUnwritten
  /-- Raised by an operation whose loop did not end within its bound; R331 says that none does; safe (log 23). -/
  | outOfFuel
deriving DecidableEq, Repr

/-- Why the machine refuses an instruction. -/
inductive Refusal where
  /-- Raised by an arm of `exec` with no meaning yet; there is none; safe. -/
  | notModelled (mnemonic : String)
  /-- Raised by every operation issued while another operation of the context is in progress, a schedule a model refuses
  (R320, U7); safe (log 5). -/
  | contextBusy
  /-- Raised by a stream token shown to the block while no decoder of its unit stands at a token boundary; safe (log 4). -/
  | tokenOutsideDecoder
  /-- Raised by a token the decoder in progress cannot read in its state: a code word of the other colour (R147), an LZW
  string code that is not assigned (R87); safe (log 4). -/
  | tokenNotReadable
deriving DecidableEq, Repr

/-- R39, R280: the values of the status register that are ever written. -/
inductive Status where
  | ok
  | okEarlyEnd
  | allocationFailure
  | corruptBitstream
  | pixelCountMismatch
  | invalidOperand
deriving DecidableEq, Repr

/-- R21, R312: whose session an operation belongs to: one for each unit, where an encoder and its decoder, and the bit writer and
the bit reader, are units of their own with a session each (the model's choice, log 31), and `none` for the operations that belong to no
session, the run-model operations and the reserved opcodes. -/
inductive Session where
  | none
  | bitWriter
  | bitReader
  | hufEnc
  | hufDec
  | a85Enc
  | lzwEnc
  | lzwDec
  | sbPack
  | sbUnpack
  | pbEnc
  | pbDec
  | cvEnc
  | cvDec
  | a85Dec
deriving DecidableEq, Repr

/-- R39: the status registers, one for the session of each unit (R312: a unit has at most one), none while it is unwritten. The
register of the operations of no session is `context`. A register keeps its value after its session closes, since the host
reads it after the operation that closes it (log 8). -/
structure Statuses where
  context : Option Status
  bitWriter : Option Status
  bitReader : Option Status
  hufEnc : Option Status
  hufDec : Option Status
  a85Enc : Option Status
  lzwEnc : Option Status
  lzwDec : Option Status
  sbPack : Option Status
  sbUnpack : Option Status
  pbEnc : Option Status
  pbDec : Option Status
  cvEnc : Option Status
  cvDec : Option Status
  a85Dec : Option Status
deriving DecidableEq, Repr

/-- R310: every status register unwritten. -/
def Statuses.unwritten : Statuses where
  context := none
  bitWriter := none
  bitReader := none
  hufEnc := none
  hufDec := none
  a85Enc := none
  lzwEnc := none
  lzwDec := none
  sbPack := none
  sbUnpack := none
  pbEnc := none
  pbDec := none
  cvEnc := none
  cvDec := none
  a85Dec := none

/-- R280: the error kinds. -/
inductive ErrorKind where
  | allocationFailure
  | corruptBitstream
  | pixelCountMismatch
  | invalidOperand
deriving DecidableEq, Repr

/-- R20: the run-model register, `length` being the count less one. -/
structure Run where
  sample : PixelSample
  length : Word16
deriving DecidableEq, Repr

/-- R26: the registers of a bit writer. -/
structure BitWriter where
  order : BitOrder
  acc : Byte
  nbits : Nat
  out : List Byte
deriving DecidableEq, Repr

/-- R27: the registers of a bit reader. -/
structure BitReader where
  order : BitOrder
  input : List Byte
  bitpos : Nat
deriving DecidableEq, Repr

/-- R28: the Huffman encoder context. -/
structure HufEnc where
  columns : Nat
  bw : BitWriter
  color : Polarity
  trailingEols : Nat
deriving DecidableEq, Repr

/-- R29: the Huffman decoder context. -/
structure HufDec where
  columns : Nat
  br : BitReader
  color : Polarity
  sbCode : Word16
  sbLen : Nat
  pending : Nat
  pendingValid : Bool
  row : List Polarity
  held : Nat
  rowsOut : List (List Polarity)
deriving DecidableEq, Repr

/-- R142, R150: which operation the Huffman decoder is in. -/
inductive HufMode where
  | line
  | page (rows : Nat)
deriving DecidableEq, Repr

/-- R142: where in it: before a scanline, or between two code words of one (`first`: no code of the scanline is read). -/
inductive HufPhase where
  | head
  | code (first : Bool)
deriving DecidableEq, Repr

/-- R31: the LZW encoder context; `dict` is the finite map of R43. -/
structure LzwEnc where
  bw : BitWriter
  dict : List ((Nat × Byte) × Nat)
  next : Nat
  width : Nat
  pre : Option Nat
  input : List Byte
  i : Nat
deriving DecidableEq, Repr

/-- R32: the LZW decoder context. `entries` holds (`pre`, `suf`) of the codes from 258 up, in order; the entries of the
codes 0 to 255 are constants (log 25). -/
structure LzwDec where
  br : BitReader
  entries : List (Nat × Byte)
  next : Nat
  width : Nat
  prev : Option Nat
  produced : Nat
  expected : Nat
  out : List Byte
deriving DecidableEq, Repr

/-- R35, R200, R201: the registers of a byte coder that has only a cursor and an output (the sub-block packer and unpacker,
the PackBits encoder). -/
structure ByteCoder where
  input : List Byte
  i : Nat
  out : List Byte
deriving DecidableEq, Repr

/-- R36: the PackBits decoder context. -/
structure PbDec where
  input : List Byte
  i : Nat
  total : Nat
  produced : Nat
  out : List Byte
deriving DecidableEq, Repr

/-- R35: the count/value encoder context: the runs to code, the cursor `i`, which counts the runs begun (log 30), and the run
under split, none between two runs (log 30). -/
structure CvEnc where
  runs : List CvRun
  i : Nat
  split : Option CvRun
  out : List Byte
deriving DecidableEq, Repr

/-- R36: the count/value decoder context. -/
structure CvDec where
  input : List Byte
  i : Nat
  total : Nat
  produced : Nat
  runs : List CvRun
deriving DecidableEq, Repr

/-- R37: the Ascii85 encoder context. -/
structure A85Enc where
  pending : Vector Byte 4
  pendingCount : Nat
  lineCol : Nat
  out : List Byte
deriving DecidableEq, Repr

/-- R38: the Ascii85 decoder context. -/
structure A85Dec where
  input : List Byte
  i : Nat
  group : List Nat
  out : List Byte
deriving DecidableEq, Repr

/-- R34: the operation in progress, between two turns of its loop. The host never sees one (R55); the contexts of the
single-operation units exist only here (R21). -/
inductive Active where
  | hufDec (mode : HufMode) (phase : HufPhase)
  | lzwEnc (c : LzwEnc)
  | lzwDec (c : LzwDec)
  | sbPack (c : ByteCoder)
  | sbUnpack (c : ByteCoder)
  | pbEnc (c : ByteCoder)
  | pbDec (c : PbDec)
  | cvEnc (c : CvEnc)
  | cvDec (c : CvDec)
  | a85Dec (c : A85Dec)
deriving DecidableEq, Repr

/-- R71: what an operation returns to the host. -/
inductive Result where
  | nothing
  | value (v : Word16)
  | run (sample : PixelSample) (count : Nat)
  | bytes (out : List Byte)
  | row (r : List Polarity)
  | eolOnly
  | endOfInput
  | rows (rs : List (List Polarity))
  | runs (rs : List CvRun)
deriving DecidableEq, Repr

/-- The state of one context. It has a session for each line of R45's unit column, so the bit writer and the bit reader, and the
Huffman encoder and decoder, can be open together, each pair being two units in the sense of R312 (the model's choice, log 31).
-/
structure State where
  /-- R5, R6: the OPEN parameters, changed by no operation; one value for every session of the context (log 7). -/
  params : Params
  /-- R20: the run-model register, none while it is unwritten. -/
  rm : Option Run
  /-- R39: the status registers. -/
  status : Statuses
  /-- R70, R286: what the last operation delivered (log 9). -/
  result : Result
  /-- R100: the bit-writer session, none while none is open. -/
  bw : Option BitWriter
  /-- R100: the bit-reader session. -/
  br : Option BitReader
  /-- R130: the Huffman encoder session. -/
  hufEnc : Option HufEnc
  /-- R140: the Huffman decoder session. -/
  hufDec : Option HufDec
  /-- R250: the Ascii85 encoder session. -/
  a85Enc : Option A85Enc
  /-- R34: the operation in progress, none between operations. -/
  active : Option Active
  /-- R55: the commands the host will issue, in their order. A command is issued when a step takes it, which is when no
operation is in progress, so one that stands here is no second operation in the sense of R320 (log 1, 5). -/
  queue : List Command
  /-- R282: the environment's draws, one for each operation, `true` where allocation fails; no draw left means that it does
  not (log 6). -/
  allocDraws : List Bool
deriving DecidableEq, Repr

/-- R310: the block after reset: no session open, the run-model register and every `status` unwritten. The parameters, the empty
queue, the empty result and the absence of failing draws are the model's own (log 6, 7, 9, 19). -/
def State.reset : State where
  params := { sampleBytes := 1, outCapacity := 4294967296 }
  rm := none
  status := .unwritten
  result := .nothing
  bw := none
  br := none
  hufEnc := none
  hufDec := none
  a85Enc := none
  active := none
  queue := []
  allocDraws := []

end Sys2Proof.Machine
end

