-- ==== Sys2Proof/Machine/Flags.lean ====
section
/-! DEFINITION. The status registers (R39, R280) and the one bit that steers decoding, the Huffman colour (R25, R40). The
block has no condition codes (R40). -/

namespace Sys2Proof.Machine

/-- R39, R280: the 3-bit code of a status. -/
def Status.code : Status → BitVec 3
  | .ok => 0
  | .okEarlyEnd => 1
  | .allocationFailure => 2
  | .corruptBitstream => 3
  | .pixelCountMismatch => 4
  | .invalidOperand => 5

/-- R280: the status an error leaves. -/
def ErrorKind.status : ErrorKind → Status
  | .allocationFailure => .allocationFailure
  | .corruptBitstream => .corruptBitstream
  | .pixelCountMismatch => .pixelCountMismatch
  | .invalidOperand => .invalidOperand

/-- R39: the status register of a session. -/
def Statuses.get (r : Statuses) : Session → Option Status
  | .none => r.context
  | .bitWriter => r.bitWriter
  | .bitReader => r.bitReader
  | .hufEnc => r.hufEnc
  | .hufDec => r.hufDec
  | .a85Enc => r.a85Enc
  | .lzwEnc => r.lzwEnc
  | .lzwDec => r.lzwDec
  | .sbPack => r.sbPack
  | .sbUnpack => r.sbUnpack
  | .pbEnc => r.pbEnc
  | .pbDec => r.pbDec
  | .cvEnc => r.cvEnc
  | .cvDec => r.cvDec
  | .a85Dec => r.a85Dec

/-- R39: the status register of a session written, or made unwritten. -/
def Statuses.set (r : Statuses) (u : Session) (st : Option Status) : Statuses :=
  match u with
  | .none => { r with context := st }
  | .bitWriter => { r with bitWriter := st }
  | .bitReader => { r with bitReader := st }
  | .hufEnc => { r with hufEnc := st }
  | .hufDec => { r with hufDec := st }
  | .a85Enc => { r with a85Enc := st }
  | .lzwEnc => { r with lzwEnc := st }
  | .lzwDec => { r with lzwDec := st }
  | .sbPack => { r with sbPack := st }
  | .sbUnpack => { r with sbUnpack := st }
  | .pbEnc => { r with pbEnc := st }
  | .pbDec => { r with pbDec := st }
  | .cvEnc => { r with cvEnc := st }
  | .cvDec => { r with cvDec := st }
  | .a85Dec => { r with a85Dec := st }

/-- The session of the operation in progress. -/
def Active.session : Active → Session
  | .hufDec _ _ => .hufDec
  | .lzwEnc _ => .lzwEnc
  | .lzwDec _ => .lzwDec
  | .sbPack _ => .sbPack
  | .sbUnpack _ => .sbUnpack
  | .pbEnc _ => .pbEnc
  | .pbDec _ => .pbDec
  | .cvEnc _ => .cvEnc
  | .cvDec _ => .cvDec
  | .a85Dec _ => .a85Dec

/-- R39, R42: the host's read of the status of a session, none (refused, U5) while an operation of the session is in progress
and before its first operation has ended. -/
def State.readStatus (s : State) (u : Session) : Option (BitVec 3) :=
  if s.active.map Active.session = some u then none else (s.status.get u).map Status.code

end Sys2Proof.Machine

namespace Sys2Proof

/-- R133, R144: the other colour. -/
def Polarity.flip : Polarity → Polarity
  | .white => .black
  | .black => .white

/-- R25: the polarity bit of a colour. -/
def Polarity.bit : Polarity → BitVec 1
  | .white => 0
  | .black => 1

end Sys2Proof
end

