-- ==== Sys2Proof/Machine/Ops.lean ====
section
/-! DEFINITION. The operations every unit shares: appending to an output (R9, R62), ending an operation with a result (R281),
raising an error (R285 to R289; the block has no other trap, R292), opening an operation (R282, R320), and running the loop
of an operation turn by turn. -/

namespace Sys2Proof.Machine

/-- What executing an instruction answers. -/
abbrev Answer := Host.Outcome State Fault Refusal

/-! ## Output -/

/-- R9, R62: `Emit(b)` appends one byte, or raises AllocationFailure where `Out` would exceed `OUT_CAPACITY`. -/
def emit (cap : Nat) (out : List Byte) (b : Byte) : Except ErrorKind (List Byte) :=
  if out.length < cap then .ok (out ++ [b]) else .error .allocationFailure

/-- The bytes emitted one after the other. -/
def emitAll (cap : Nat) (out : List Byte) : List Byte → Except ErrorKind (List Byte)
  | [] => .ok out
  | b :: bs =>
    match emit cap out b with
    | .ok out' => emitAll cap out' bs
    | .error e => .error e

/-! ## Sessions and ends of operations -/

/-- R310, R45: a session opens with its status unwritten; the operation that opens it sets its other registers. -/
def State.openSession (s : State) (u : Session) : State := { s with status := s.status.set u Option.none }

/-- R285, R312: close a session and discard its context; that of a single-operation unit is discarded with the operation
(R21). -/
def State.close (s : State) : Session → State
  | .none | .lzwEnc | .lzwDec | .sbPack | .sbUnpack | .pbEnc | .pbDec | .cvEnc | .cvDec | .a85Dec => s
  | .bitWriter => { s with bw := Option.none }
  | .bitReader => { s with br := Option.none }
  | .hufEnc => { s with hufEnc := Option.none }
  | .hufDec => { s with hufDec := Option.none }
  | .a85Enc => { s with a85Enc := Option.none }

/-- R281, R39: an operation of the session ends: its status is written and its result delivered. -/
def State.finish (s : State) (u : Session) (st : Status) (r : Result) : State :=
  { s with status := s.status.set u (some st), result := r, active := Option.none }

/-- R285 to R289: `raise E` ends the operation: the session's `status` becomes `E`, no result is delivered, and for every kind
but InvalidOperand the session closes. Nothing else changes. -/
def State.raise (s : State) (u : Session) (e : ErrorKind) : State :=
  (if e = .invalidOperand then s else s.close u).finish u e.status .nothing

/-- An operation with one turn: its effect, or the error it raises. -/
def State.complete (s : State) (u : Session) : Except ErrorKind State → Answer
  | .ok t => .next t
  | .error e => .next (s.raise u e)

/-! ## Opening an operation -/

/-- R282: the environment's draw for the next operation. -/
def State.allocFails (s : State) : Bool := s.allocDraws.head?.getD false

/-- The draw is used up. -/
def State.popDraw (s : State) : State := { s with allocDraws := s.allocDraws.tail }

/-- An operation of the host: refused while another is in progress (R320); ended by AllocationFailure where the environment
draws one, whatever the operands (R282, R288, log 6, 21); otherwise its own effect. -/
def operation (u : Session) (s : State) (body : State → Answer) : Answer :=
  match s.active with
  | some _ => .refused .contextBusy
  | Option.none =>
    if s.allocFails then .next (s.popDraw.raise u .allocationFailure)
    else body s.popDraw

/-! ## Loops -/

/-- What one turn of an operation's loop comes to. -/
inductive Progress (α : Type) where
  /-- the loop goes on from this context -/
  | more (c : α)
  /-- the operation returns -/
  | done (c : α) (st : Status) (r : Result)
  /-- the operation raises an error -/
  | raised (e : ErrorKind)
  /-- the model cannot go on -/
  | stuck (f : Fault)
deriving DecidableEq, Repr

/-- What stands at the head of a turn of a decoder: a token read, with the context after reading it, or the end of the turn
without one. -/
inductive Turn (τ α : Type) where
  | token (t : τ) (c : α)
  | stop (p : Progress α)
deriving DecidableEq, Repr

/-- Turns until the operation ends, at most `fuel` of them (R331). -/
def runLoop {α : Type} (turn : α → Progress α) : Nat → α → Progress α
  | 0, _ => .stuck .outOfFuel
  | fuel + 1, c =>
    match turn c with
    | .more c' => runLoop turn fuel c'
    | p => p

/-- The turn of a decoder: read a token and take it. -/
def Turn.take {τ α : Type} (accept : α → τ → Progress α) : Turn τ α → Progress α
  | .token t c => accept c t
  | .stop p => p

/-- A value or an error as the progress of a loop. -/
def Progress.ofExcept {α : Type} (k : β → Progress α) : Except ErrorKind β → Progress α
  | .ok b => k b
  | .error e => .raised e

/-- The state a turn of a single-operation unit leaves; `u` is its session. -/
def settle {α : Type} (u : Session) (mk : α → Active) (s : State) : Progress α → Answer
  | .more c => .next { s with active := some (mk c) }
  | .done _ st r => .next (s.finish u st r)
  | .raised e => .next (s.raise u e)
  | .stuck f => .fault f

end Sys2Proof.Machine
end

