-- ==== Sys2Proof/Machine/Operands.lean ====
section
/-! DEFINITION. The operand forms: bit orders (R101), widths (R102), columns (R130), counts (R114), lines (R131), count/value
runs (R231). An operand outside its range ends the operation with InvalidOperand (R72). -/

namespace Sys2Proof.Machine

/-- R72: an operand check. -/
def require (ok : Bool) : Except ErrorKind Unit := if ok then .ok () else .error .invalidOperand

/-- R312: the open session of a unit, or InvalidOperand. -/
def requireSession {α : Type} : Option α → Except ErrorKind α
  | some c => .ok c
  | none => .error .invalidOperand

/-- R101: the bit order an `order` operand names: 0 MSB-first, 1 LSB-first. -/
def orderOf (o : Nat) : Except ErrorKind BitOrder :=
  if o = 0 then .ok .msb else if o = 1 then .ok .lsb else .error .invalidOperand

/-- R24: the expansion of a run sequence. -/
def expand {α : Type} (runs : List (α × Nat)) : List α := runs.flatMap fun r => List.replicate r.2 r.1

/-- R131: the pixels of a line operand. -/
def linePixels : Line → List Polarity
  | .row px => px
  | .runs rs => expand rs

/-- R23: the sum of the counts of a run sequence. -/
def runTotal (runs : List CvRun) : Nat := (runs.map CvRun.count).sum

end Sys2Proof.Machine
end

