-- ==== Sys2Proof/Machine/Ascii85.lean ====
section
/-! DEFINITION. The Ascii85 coder (R250 to R263) and its characters as instructions (R91, R92). -/

namespace Sys2Proof.Machine

/-! ## Words -/

/-- R53: the big-endian word of four bytes. -/
def wordOf (v : Vector Byte 4) : BitVec 32 := v[0] ++ v[1] ++ v[2] ++ v[3]

/-- R258: the four bytes of a word, most significant first. -/
def wordBytes (w : Nat) : List Byte :=
  [BitVec.ofNat 8 (w / 2 ^ 24), BitVec.ofNat 8 (w / 2 ^ 16), BitVec.ofNat 8 (w / 2 ^ 8), BitVec.ofNat 8 w]

/-- R253: `Digits(w)`, the five base-85 digits, most significant first. -/
def digits85 (w : Nat) : List Nat :=
  let r0 := w % 85 ^ 4
  let r1 := r0 % 85 ^ 3
  let r2 := r1 % 85 ^ 2
  [w / 85 ^ 4, r0 / 85 ^ 3, r1 / 85 ^ 2, r2 / 85, r2 % 85]

/-- R258: the value of the digits, most significant first. -/
def value85 (ds : List Nat) : Nat := ds.foldl (fun v d => v * 85 + d) 0

/-- R253: the character of a digit. -/
def char85 (d : Nat) : Byte := BitVec.ofNat 8 (33 + d)

/-! ## Encoder -/

/-- R250: an encoder session as it opens. -/
def A85Enc.fresh : A85Enc := ⟨#v[0, 0, 0, 0], 0, 0, []⟩

/-- R250: the open session, or a new one. -/
def A85Enc.continued : Option A85Enc → A85Enc
  | some c => c
  | none => A85Enc.fresh

/-- R255: `PutChar(ch)`, which breaks the line before the 73rd data character. -/
def A85Enc.putChar (cap : Nat) (c : A85Enc) (ch : Byte) : Except ErrorKind A85Enc := do
  let c ←
    if c.lineCol = a85LineWidth then do
      let out ← emit cap c.out 0x0A
      pure { c with out := out, lineCol := 0 }
    else pure c
  let out ← emit cap c.out ch
  pure { c with out := out, lineCol := c.lineCol + 1 }

/-- Characters put one after the other. -/
def A85Enc.putChars (cap : Nat) : A85Enc → List Byte → Except ErrorKind A85Enc
  | c, [] => .ok c
  | c, x :: xs =>
    match c.putChar cap x with
    | .ok c' => c'.putChars cap xs
    | .error e => .error e

/-- R251 to R253: the characters of a full tuple, `z` for the word zero. -/
def tupleChars (w : Nat) : List Byte := if w = 0 then [0x7A] else (digits85 w).map char85

/-- R251: one byte: the fourth of a tuple writes the tuple. -/
def A85Enc.byte (cap : Nat) (c : A85Enc) (b : Byte) : Except ErrorKind A85Enc :=
  let c := { c with pending := c.pending.setIfInBounds c.pendingCount b, pendingCount := c.pendingCount + 1 }
  if c.pendingCount = 4 then
    match c.putChars cap (tupleChars (wordOf c.pending).toNat) with
    | .ok c' => .ok { c' with pending := #v[0, 0, 0, 0], pendingCount := 0 }
    | .error e => .error e
  else .ok c

/-- R254: the pending bytes with zeros after them. -/
def A85Enc.padded (c : A85Enc) : Vector Byte 4 := Vector.ofFn fun k => if k.val < c.pendingCount then c.pending[k] else 0

/-- R254: the end of the stream: the characters of a partial tuple, never `z`, and the end marker, which is no data
character (R256). -/
def A85Enc.endOut (cap : Nat) (c : A85Enc) : Except ErrorKind (List Byte) := do
  let c ←
    if 0 < c.pendingCount then
      c.putChars cap (((digits85 (wordOf c.padded).toNat).take (c.pendingCount + 1)).map char85)
    else pure c
  emitAll cap c.out [0x7E, 0x3E]

/-- R251: `A85_ENC_BYTE b`; it opens a session where none is open (R312). -/
def execA85EncByte (b : Byte) (s : State) : Answer :=
  operation .a85Enc s fun s => s.complete .a85Enc do
    let c ← (A85Enc.continued s.a85Enc).byte s.params.outCapacity b
    pure ({ (if s.a85Enc = none then s.openSession .a85Enc else s) with a85Enc := some c }.finish .a85Enc .ok .nothing)

/-- R254: `A85_ENC_END`, which returns the output and closes the session. -/
def execA85EncEnd (s : State) : Answer :=
  operation .a85Enc s fun s => s.complete .a85Enc do
    let out ← (A85Enc.continued s.a85Enc).endOut s.params.outCapacity
    pure ((s.close .a85Enc).finish .a85Enc .ok (.bytes out))

/-! ## Decoder -/

/-- R258: bytes are emitted. -/
def A85Dec.emitBytes (p : Params) (c : A85Dec) (bytes : List Byte) : Progress A85Dec :=
  Progress.ofExcept (fun out => .more { c with out := out }) (emitAll p.outCapacity c.out bytes)

/-- R258, R260: a digit; the fifth of a tuple writes its four bytes. -/
def A85Dec.digit (p : Params) (c : A85Dec) (d : Nat) : Progress A85Dec :=
  let group := c.group ++ [d]
  if group.length = 5 then
    if 2 ^ 32 - 1 < value85 group then .raised .corruptBitstream
    else { c with group := [] }.emitBytes p (wordBytes (value85 group))
  else .more { c with group := group }

/-- R258: `z`. -/
def A85Dec.zero (p : Params) (c : A85Dec) : Progress A85Dec :=
  if c.group ≠ [] then .raised .corruptBitstream else c.emitBytes p [0, 0, 0, 0]

/-- R262: the bytes of a short final tuple of 2 to 4 digits, padded with the digit 84. -/
def A85Dec.tail (c : A85Dec) : Except ErrorKind (List Byte) :=
  if c.group = [] then .ok []
  else if c.group.length = 1 then .error .corruptBitstream
  else
    let w := value85 (c.group ++ List.replicate (5 - c.group.length) 84)
    if 2 ^ 32 - 1 < w then .error .corruptBitstream
    else .ok ((wordBytes w).take (c.group.length - 1))

/-- R258, R261: the end marker. -/
def A85Dec.finish (p : Params) (c : A85Dec) : Progress A85Dec :=
  Progress.ofExcept (fun out => .done c .ok (.bytes out)) do
    let bytes ← c.tail
    emitAll p.outCapacity c.out bytes

/-- R259: a skipped character. -/
def A85Dec.skip (c : A85Dec) : Progress A85Dec := .more c

/-- R260: an illegal character. -/
def A85Dec.illegal : Progress A85Dec := .raised .corruptBitstream

/-- R258: what a character does. -/
def A85Dec.accept (p : Params) (c : A85Dec) : A85Tok → Progress A85Dec
  | .digit d => c.digit p d
  | .zero => c.zero p
  | .stop => c.finish p
  | .linebreak => c.skip
  | .whitespace _ => c.skip
  | .illegal _ => A85Dec.illegal

/-- R258, R261: the head of a turn reads a character; the end of the input there raises CorruptBitstream. -/
def A85Dec.turn (c : A85Dec) : Turn A85Tok A85Dec :=
  match c.input[c.i]? with
  | some ch => .token (decodeA85 ch c.input[c.i + 1]?) { c with i := c.i + 1 }
  | none => .stop (.raised .corruptBitstream)

/-- One turn of the loop. -/
def A85Dec.advance (p : Params) (c : A85Dec) : Progress A85Dec := c.turn.take (A85Dec.accept p)

/-- The whole of the operation. -/
def A85Dec.run (p : Params) (input : List Byte) : Progress A85Dec :=
  runLoop (A85Dec.advance p) (input.length + 1) ⟨input, 0, [], []⟩

/-- R258: `A85_DEC In`. -/
def execA85Dec (input : List Byte) (s : State) : Answer :=
  operation .a85Dec s fun s => settle .a85Dec .a85Dec (s.openSession .a85Dec) (A85Dec.run s.params input)

/-- A character as an instruction: taken by the decoder in progress. -/
def onA85Dec (s : State) (f : A85Dec → Progress A85Dec) : Answer :=
  match s.active with
  | some (.a85Dec c) => settle .a85Dec .a85Dec s (f c)
  | _ => .refused .tokenOutsideDecoder

/-- `A85_DIGIT`. -/
def execA85Digit (d : Nat) (s : State) : Answer := onA85Dec s fun c => c.digit s.params d

/-- `A85_ZERO`. -/
def execA85Zero (s : State) : Answer := onA85Dec s fun c => c.zero s.params

/-- `A85_END`. -/
def execA85End (s : State) : Answer := onA85Dec s fun c => c.finish s.params

/-- `A85_LINEBREAK`. -/
def execA85Linebreak (s : State) : Answer := onA85Dec s A85Dec.skip

/-- `A85_WHITESPACE`. -/
def execA85Whitespace (_b : Byte) (s : State) : Answer := onA85Dec s A85Dec.skip

/-- `A85_ILLEGAL`. -/
def execA85Illegal (_b : Byte) (s : State) : Answer := onA85Dec s fun _ => A85Dec.illegal

end Sys2Proof.Machine
end

