-- ==== Sys2Proof/Machine/BitIo.lean ====
section
/-! DEFINITION. The bit writer and the bit reader: the primitives `WriteBits` and `ReadBits` the Huffman and LZW units use,
and the operations `BW_*` and `BR_*` (R100 to R108). -/

namespace Sys2Proof.Machine

/-! ## The writer -/

/-- R101: a fresh bit writer. -/
def BitWriter.fresh (order : BitOrder) : BitWriter := ⟨order, 0, 0, []⟩

/-- R52, R102: the position in `acc` of the next bit. -/
def BitWriter.pos (b : BitWriter) : Nat :=
  match b.order with
  | .msb => 7 - b.nbits
  | .lsb => b.nbits

/-- R102: one bit of the loop of `WriteBits`; the byte is emitted when its eighth bit is placed. -/
def BitWriter.putBit (cap : Nat) (b : BitWriter) (bit : Bool) : Except ErrorKind BitWriter :=
  let acc := b.acc ||| (BitVec.ofNat 8 bit.toNat <<< b.pos)
  if b.nbits + 1 = 8 then
    match emit cap b.out acc with
    | .ok out => .ok { b with acc := 0, nbits := 0, out := out }
    | .error e => .error e
  else .ok { b with acc := acc, nbits := b.nbits + 1 }

/-- Bits placed one after the other. -/
def BitWriter.putBits (cap : Nat) : BitWriter → List Bool → Except ErrorKind BitWriter
  | b, [] => .ok b
  | b, x :: xs =>
    match b.putBit cap x with
    | .ok b' => b'.putBits cap xs
    | .error e => .error e

/-- R52, R102: the low `width` bits of a value in stream order. -/
def streamBits : BitOrder → Nat → Nat → List Bool
  | .msb, width, value => msbBits width value
  | .lsb, width, value => lsbBits width value

/-- R102: `WriteBits(value, width)`; bits of the value above the width are ignored. -/
def BitWriter.writeBits (cap : Nat) (b : BitWriter) (value width : Nat) : Except ErrorKind BitWriter :=
  b.putBits cap (streamBits b.order width value)

/-- R103, R54: the output with the partial byte, whose unused positions are 0. -/
def BitWriter.flush (cap : Nat) (b : BitWriter) : Except ErrorKind (List Byte) :=
  if 0 < b.nbits then emit cap b.out b.acc else .ok b.out

/-- The bytes of a bit string, zero-padded to a byte (R54). -/
def packBits (order : BitOrder) (bits : List Bool) : List Byte :=
  match (BitWriter.fresh order).putBits (bits.length + 1) bits with
  | .ok b =>
    match b.flush (bits.length + 1) with
    | .ok out => out
    | .error _ => []
  | .error _ => []

/-! ## The reader -/

/-- R105: a reader at the start of a stream. -/
def BitReader.fresh (order : BitOrder) (input : List Byte) : BitReader := ⟨order, input, 0⟩

/-- R27: the bits remaining. -/
def BitReader.remaining (r : BitReader) : Nat := 8 * r.input.length - r.bitpos

/-- R106: bit `p` of the stream in the order of the reader; it is read only for `p` inside the stream. -/
def BitReader.bitAt (r : BitReader) (p : Nat) : Bool :=
  let byte := r.input.getD (p / 8) 0
  match r.order with
  | .msb => byte.getLsbD (7 - p % 8)
  | .lsb => byte.getLsbD (p % 8)

/-- The next `n` bits of the stream, fewer where fewer remain; nothing is consumed. -/
def BitReader.peek (r : BitReader) (n : Nat) : List Bool :=
  (List.range (min n r.remaining)).map fun k => r.bitAt (r.bitpos + k)

/-- R106: the value of bits read in an order. -/
def streamValue : BitOrder → List Bool → Nat
  | .msb, bits => msbValue bits
  | .lsb, bits => lsbValue bits

/-- R106, R107: `ReadBits(width)`, none at end of input, which consumes nothing. -/
def BitReader.readBits (r : BitReader) (width : Nat) : Option (Nat × BitReader) :=
  if r.remaining < width then none
  else some (streamValue r.order (r.peek width), { r with bitpos := r.bitpos + width })

/-! ## The operations -/

/-- R101: `BW_INIT order`; it discards an open session (R312). -/
def execBwInit (order : Nat) (s : State) : Answer :=
  operation .bitWriter s fun s => s.complete .bitWriter do
    let o ← orderOf order
    pure ({ s.openSession .bitWriter with bw := some (BitWriter.fresh o) }.finish .bitWriter .ok .nothing)

/-- R102: `BW_WRITE value, width`. -/
def execBwWrite (value : Word16) (width : Nat) (s : State) : Answer :=
  operation .bitWriter s fun s => s.complete .bitWriter do
    require (widthOk width)
    let b ← requireSession s.bw
    let b' ← b.writeBits s.params.outCapacity value.toNat width
    pure ({ s with bw := some b' }.finish .bitWriter .ok .nothing)

/-- R103: `BW_FLUSH`, which returns the output and closes the session. -/
def execBwFlush (s : State) : Answer :=
  operation .bitWriter s fun s => s.complete .bitWriter do
    let b ← requireSession s.bw
    let out ← b.flush s.params.outCapacity
    pure ((s.close .bitWriter).finish .bitWriter .ok (.bytes out))

/-- R105: `BR_INIT order, In`; it discards an open session (R312). -/
def execBrInit (order : Nat) (input : List Byte) (s : State) : Answer :=
  operation .bitReader s fun s => s.complete .bitReader do
    let o ← orderOf order
    pure ({ s.openSession .bitReader with br := some (BitReader.fresh o input) }.finish .bitReader .ok .nothing)

/-- R106, R107: `BR_READ width`. Past the end of the input the status is CorruptBitstream and the reader stays open at its
position, the one error other than InvalidOperand that closes no session (log 10). -/
def execBrRead (width : Nat) (s : State) : Answer :=
  operation .bitReader s fun s => s.complete .bitReader do
    require (widthOk width)
    let r ← requireSession s.br
    match r.readBits width with
    | some (v, r') => pure ({ s with br := some r' }.finish .bitReader .ok (.value (BitVec.ofNat 16 v)))
    | none => pure (s.finish .bitReader .corruptBitstream .nothing)

end Sys2Proof.Machine
end

