-- ==== Sys2Proof/Machine/CountValue.lean ====
section
/-! DEFINITION. The count/value coder (R230 to R236) and its packets as instructions (R90). -/

namespace Sys2Proof.Machine

/-! ## Encoder -/

/-- R231: one turn: one packet of the run under split, the next run, or the end. -/
def CvEnc.advance (p : Params) (c : CvEnc) : Progress CvEnc :=
  match c.split with
  | some r =>
    let k := min r.count cvMaxPacket
    Progress.ofExcept
      (fun out => .more { c with
        out := out, split := if r.count = k then none else some { r with count := r.count - k } })
      (emitAll p.outCapacity c.out (r.sample ++ [BitVec.ofNat 8 (k - 1)]))
  | none =>
    match c.runs[c.i]? with
    | some r => .more { c with i := c.i + 1, split := some r }
    | none => .done c .ok (.bytes c.out)

/-- R35, R45: the encoder as its operation opens, the cursor at 0. The spec gives the run under split no session value and
does not say what the cursor counts here: that no run is under split, and that the cursor indexes the next run to begin, are
the model's choice (log 30). -/
def CvEnc.fresh (runs : List CvRun) : CvEnc := ⟨runs, 0, none, []⟩

/-- The whole of the operation: a turn for each run, one for each packet (at most the count of its run), one for the end. -/
def CvEnc.run (p : Params) (runs : List CvRun) : Progress CvEnc :=
  runLoop (CvEnc.advance p) (runs.length + runTotal runs + 1) (CvEnc.fresh runs)

/-- R231: `CV_ENC runs, total`; the operand checks come first (R288), then the sum of the counts (R23). -/
def execCvEnc (runs : List CvRun) (total : Nat) (s : State) : Answer :=
  operation .cvEnc s fun s =>
    if (runs.all (CvRun.ok s.params)) = false then .next (s.raise .cvEnc .invalidOperand)
    else if runTotal runs ≠ total then .next (s.raise .cvEnc .pixelCountMismatch)
    else settle .cvEnc .cvEnc (s.openSession .cvEnc) (CvEnc.run s.params runs)

/-! ## Decoder -/

/-- R235: a packet has been read, `k + 1` samples of one value (R116). -/
def CvDec.packet (c : CvDec) (value : List Byte) (k : Byte) : Progress CvDec :=
  if c.total < c.produced + (k.toNat + 1) then .raised .pixelCountMismatch
  else .more { c with runs := c.runs ++ [⟨value, k.toNat + 1⟩], produced := c.produced + (k.toNat + 1) }

/-- R235: the head of a turn: the operation returns at the declared total, else a packet is read. -/
def CvDec.turn (p : Params) (c : CvDec) : Turn (List Byte × Byte) CvDec :=
  if c.produced < c.total then
    match decodeCv p.sampleBytes (c.input.drop c.i) with
    | some t => .token t { c with i := c.i + (p.sampleBytes + 1) }
    | none => .stop (.raised .pixelCountMismatch)
  else .stop (.done c .ok (.runs c.runs))

/-- One turn of the loop. -/
def CvDec.advance (p : Params) (c : CvDec) : Progress CvDec := (c.turn p).take fun c t => c.packet t.1 t.2

/-- The whole of the operation. -/
def CvDec.run (p : Params) (input : List Byte) (total : Nat) : Progress CvDec :=
  runLoop (CvDec.advance p) (input.length + 1) ⟨input, 0, total, 0, []⟩

/-- R235: `CV_DEC In, total`. -/
def execCvDec (input : List Byte) (total : Nat) (s : State) : Answer :=
  operation .cvDec s fun s => settle .cvDec .cvDec (s.openSession .cvDec) (CvDec.run s.params input total)

/-- `CV_PACKET`: a packet as an instruction, taken by the decoder in progress, whose packets have `SAMPLE_BYTES` value
bytes. -/
def execCvPacket (value : List Byte) (k : Byte) (s : State) : Answer :=
  match s.active with
  | some (.cvDec c) =>
    if value.length = s.params.sampleBytes then settle .cvDec .cvDec s (c.packet value k) else .refused .tokenNotReadable
  | _ => .refused .tokenOutsideDecoder

end Sys2Proof.Machine
end

