-- ==== Sys2Proof/Machine/HufDec.lean ====
section
/-! DEFINITION. The Huffman decoder (R140 to R154). `HUF_DEC_LINE` and `HUF_DEC_PAGE` run the same loop, whose turns are
the ones a step takes while the operation is in progress (log 3). -/

namespace Sys2Proof.Machine

/-- The decoder inside one of its operations: the context with the position in the operation (R34). -/
structure HufRun where
  dec : HufDec
  mode : HufMode
  phase : HufPhase
deriving DecidableEq, Repr

/-- What a scanline comes to (R142). -/
inductive LineEnd where
  | row (r : List Polarity)
  | eolOnly
  | endOfInput
deriving DecidableEq, Repr

/-- R146: fewer than 8 bits remain and all of them are 0. -/
def BitReader.paddingTail (r : BitReader) : Bool :=
  decide (r.remaining < 8) && (r.peek 8).all fun b => !b

/-- R143: `ReadCode(c)` reads one code word of the set of the decoder's colour through the shift buffer; end of input inside
it and 13 bits with no hit (R145) raise CorruptBitstream. -/
def HufDec.readCode (d : HufDec) : Except ErrorKind (Entry × HufDec) :=
  match decodeEntry d.color (d.br.peek hufMaxCodeLen) with
  | .ok e => .ok (e, { d with
      br := { d.br with bitpos := d.br.bitpos + e.bitLength }, sbCode := e.code, sbLen := e.bitLength })
  | .error _ => .error .corruptBitstream

/-- R151: rows of `columns` white pixels. -/
def HufDec.whiteRows (d : HufDec) (n : Nat) : List (List Polarity) :=
  List.replicate n (List.replicate d.columns .white)

/-- R142, R150 to R153: a scanline ends. `HUF_DEC_LINE` returns it; `HUF_DEC_PAGE` holds an EOL-only line back, ends at the
third in a row, adds a row with the held ones before it, and raises PixelCountMismatch at the end of the input. -/
def HufRun.endLine (r : HufRun) (line : LineEnd) : Progress HufRun :=
  match r.mode, line with
  | .line, .row px => .done r .ok (.row px)
  | .line, .eolOnly => .done r .ok .eolOnly
  | .line, .endOfInput => .done r .ok .endOfInput
  | .page _, .endOfInput => .raised .pixelCountMismatch
  | .page _, .eolOnly =>
    if r.dec.held + 1 = hufBlankLinesEop then .done r .okEarlyEnd (.rows r.dec.rowsOut)
    else .more { r with dec := { r.dec with held := r.dec.held + 1 }, phase := .head }
  | .page _, .row px =>
    .more { r with
      dec := { r.dec with rowsOut := r.dec.rowsOut ++ r.dec.whiteRows r.dec.held ++ [px], held := 0 }, phase := .head }

/-- R144: a terminating code closes the run of the current colour and flips the colour. -/
def HufDec.closeRun (d : HufDec) (e : Entry) : Except ErrorKind HufDec :=
  if d.columns < d.row.length + (d.pending + e.runValue) then .error .corruptBitstream
  else .ok { d with
    row := d.row ++ List.replicate (d.pending + e.runValue) d.color, color := d.color.flip, pending := 0,
    pendingValid := false }

/-- R147: a makeup or Extension code adds to the pending run. -/
def HufDec.addMakeup (d : HufDec) (e : Entry) : Except ErrorKind HufDec :=
  if d.columns < d.row.length + (d.pending + e.runValue) then .error .corruptBitstream
  else .ok { d with pending := d.pending + e.runValue, pendingValid := true }

/-- R148: the row an early EOL leaves, padded with the last polarity, white for a row with no pixel. -/
def HufDec.paddedRow (d : HufDec) : List Polarity :=
  d.row ++ List.replicate (d.columns - d.row.length) (d.row.getLast?.getD .white)

/-- R142: a code word read inside a scanline takes its effect. After a full row only EOL is accepted (R149). -/
def HufRun.accept (r : HufRun) (first : Bool) (e : Entry) : Progress HufRun :=
  if r.dec.row.length = r.dec.columns then
    if e.cls = .eol then r.endLine (.row r.dec.row) else .raised .corruptBitstream
  else
    match e.cls with
    | .eol =>
      if r.dec.pendingValid then .raised .corruptBitstream
      else if first then r.endLine .eolOnly
      else r.endLine (.row r.dec.paddedRow)
    | .terminatingWhite | .terminatingBlack =>
      Progress.ofExcept (fun d => .more { r with dec := d, phase := .code false }) (r.dec.closeRun e)
    | .makeupWhite | .makeupBlack | .extension =>
      Progress.ofExcept (fun d => .more { r with dec := d, phase := .code false }) (r.dec.addMakeup e)

/-- R142, R146: the start of a scanline: end of input at a padding tail, else the registers of the line are reset. -/
def HufRun.beginLine (r : HufRun) : Progress HufRun :=
  if r.dec.br.paddingTail then r.endLine .endOfInput
  else .more { r with
    dec := { r.dec with color := .white, row := [], pending := 0, pendingValid := false }, phase := .code true }

/-- R142, R150: the head of a turn. Between scanlines a page with `rows` rows or held lines returns, and a scanline is begun
otherwise; inside one, a full row at a padding tail ends it (R149) and otherwise a code word is read. -/
def HufRun.turn (r : HufRun) : Turn Entry HufRun :=
  match r.phase with
  | .head =>
    match r.mode with
    | .line => .stop r.beginLine
    | .page rows =>
      if r.dec.rowsOut.length + r.dec.held < rows then .stop r.beginLine
      else .stop (.done { r with dec := { r.dec with rowsOut := r.dec.rowsOut ++ r.dec.whiteRows r.dec.held } } .ok
        (.rows (r.dec.rowsOut ++ r.dec.whiteRows r.dec.held)))
  | .code _ =>
    if r.dec.row.length = r.dec.columns ∧ r.dec.br.paddingTail = true then .stop (r.endLine (.row r.dec.row))
    else
      match r.dec.readCode with
      | .ok (e, d) => .token e { r with dec := d }
      | .error x => .stop (.raised x)

/-- Whether no code of the scanline has been read (R142). -/
def HufPhase.first : HufPhase → Bool
  | .head => false
  | .code first => first

/-- One turn of the loop. -/
def HufRun.advance (r : HufRun) : Progress HufRun :=
  r.turn.take fun r' e => r'.accept r'.phase.first e

/-- R331: more turns than an operation on the remaining bits can take. -/
def HufDec.fuel (d : HufDec) : Nat := 3 * d.br.remaining + 4

/-- The whole of an operation of the decoder. -/
def HufDec.run (d : HufDec) (mode : HufMode) : Progress HufRun :=
  runLoop HufRun.advance d.fuel ⟨d, mode, .head⟩

/-- The state a turn leaves: the page closes the session when it returns, the line does not (R150, R142). -/
def settleHuf (s : State) : Progress HufRun → Answer
  | .more r => .next { s with hufDec := some r.dec, active := some (.hufDec r.mode r.phase) }
  | .done r st res =>
    match r.mode with
    | .line => .next ({ s with hufDec := some r.dec }.finish .hufDec st res)
    | .page _ => .next ((s.close .hufDec).finish .hufDec st res)
  | .raised e => .next (s.raise .hufDec e)
  | .stuck f => .fault f

/-- A Huffman code word as an instruction: taken by the decoder that stands between two code words of a scanline, if it is
in the set of the decoder's colour (R141, R147; log 4). -/
def acceptCode (e : Entry) (s : State) : Answer :=
  match s.active, s.hufDec with
  | some (.hufDec mode (.code first)), some d =>
    if e.cls.inSet d.color then settleHuf s (HufRun.accept ⟨d, mode, .code first⟩ first e)
    else .refused .tokenNotReadable
  | _, _ => .refused .tokenOutsideDecoder

/-- R140: a decoder context as its session opens. -/
def HufDec.fresh (input : List Byte) (columns : Nat) : HufDec where
  columns := columns
  br := BitReader.fresh .msb input
  color := .white
  sbCode := 0
  sbLen := 0
  pending := 0
  pendingValid := false
  row := []
  held := 0
  rowsOut := []

/-- R140: `HUF_DEC_BEGIN In, columns`; it discards an open session (R312). -/
def execHufDecBegin (input : List Byte) (columns : Nat) (s : State) : Answer :=
  operation .hufDec s fun s => s.complete .hufDec do
    require (columnsOk columns)
    pure ({ s.openSession .hufDec with hufDec := some (HufDec.fresh input columns) }.finish .hufDec .ok .nothing)

/-- R142: `HUF_DEC_LINE`. -/
def execHufDecLine (s : State) : Answer :=
  operation .hufDec s fun s =>
    match s.hufDec with
    | none => .next (s.raise .hufDec .invalidOperand)
    | some d => settleHuf s (d.run .line)

/-- R150: `HUF_DEC_PAGE rows`. -/
def execHufDecPage (rows : Nat) (s : State) : Answer :=
  operation .hufDec s fun s =>
    match s.hufDec with
    | none => .next (s.raise .hufDec .invalidOperand)
    | some d => settleHuf s (d.run (.page rows))

end Sys2Proof.Machine
end

