-- ==== Sys2Proof/Machine/HufCodes.lean ====
section
/-! DEFINITION. The meanings of the 196 Huffman code words (R80 to R85), each the acceptance of its own table row by the
Huffman decoder in progress (`acceptCode`, rules R142, R144, R147, R148, R149). -/

namespace Sys2Proof.Machine

/-- `W_TERM_0`, the code word `00110101`. -/
def execWTerm0 (s : State) : Answer := acceptCode (termCode .white 0) s

/-- `W_TERM_1`, the code word `000111`. -/
def execWTerm1 (s : State) : Answer := acceptCode (termCode .white 1) s

/-- `W_TERM_2`, the code word `0111`. -/
def execWTerm2 (s : State) : Answer := acceptCode (termCode .white 2) s

/-- `W_TERM_3`, the code word `1000`. -/
def execWTerm3 (s : State) : Answer := acceptCode (termCode .white 3) s

/-- `W_TERM_4`, the code word `1011`. -/
def execWTerm4 (s : State) : Answer := acceptCode (termCode .white 4) s

/-- `W_TERM_5`, the code word `1100`. -/
def execWTerm5 (s : State) : Answer := acceptCode (termCode .white 5) s

/-- `W_TERM_6`, the code word `1110`. -/
def execWTerm6 (s : State) : Answer := acceptCode (termCode .white 6) s

/-- `W_TERM_7`, the code word `1111`. -/
def execWTerm7 (s : State) : Answer := acceptCode (termCode .white 7) s

/-- `W_TERM_8`, the code word `10011`. -/
def execWTerm8 (s : State) : Answer := acceptCode (termCode .white 8) s

/-- `W_TERM_9`, the code word `10100`. -/
def execWTerm9 (s : State) : Answer := acceptCode (termCode .white 9) s

/-- `W_TERM_10`, the code word `00111`. -/
def execWTerm10 (s : State) : Answer := acceptCode (termCode .white 10) s

/-- `W_TERM_11`, the code word `01000`. -/
def execWTerm11 (s : State) : Answer := acceptCode (termCode .white 11) s

/-- `W_TERM_12`, the code word `001000`. -/
def execWTerm12 (s : State) : Answer := acceptCode (termCode .white 12) s

/-- `W_TERM_13`, the code word `000011`. -/
def execWTerm13 (s : State) : Answer := acceptCode (termCode .white 13) s

/-- `W_TERM_14`, the code word `110100`. -/
def execWTerm14 (s : State) : Answer := acceptCode (termCode .white 14) s

/-- `W_TERM_15`, the code word `110101`. -/
def execWTerm15 (s : State) : Answer := acceptCode (termCode .white 15) s

/-- `W_TERM_16`, the code word `101010`. -/
def execWTerm16 (s : State) : Answer := acceptCode (termCode .white 16) s

/-- `W_TERM_17`, the code word `101011`. -/
def execWTerm17 (s : State) : Answer := acceptCode (termCode .white 17) s

/-- `W_TERM_18`, the code word `0100111`. -/
def execWTerm18 (s : State) : Answer := acceptCode (termCode .white 18) s

/-- `W_TERM_19`, the code word `0001100`. -/
def execWTerm19 (s : State) : Answer := acceptCode (termCode .white 19) s

/-- `W_TERM_20`, the code word `0001000`. -/
def execWTerm20 (s : State) : Answer := acceptCode (termCode .white 20) s

/-- `W_TERM_21`, the code word `0010111`. -/
def execWTerm21 (s : State) : Answer := acceptCode (termCode .white 21) s

/-- `W_TERM_22`, the code word `0000011`. -/
def execWTerm22 (s : State) : Answer := acceptCode (termCode .white 22) s

/-- `W_TERM_23`, the code word `0000100`. -/
def execWTerm23 (s : State) : Answer := acceptCode (termCode .white 23) s

/-- `W_TERM_24`, the code word `0101000`. -/
def execWTerm24 (s : State) : Answer := acceptCode (termCode .white 24) s

/-- `W_TERM_25`, the code word `0101011`. -/
def execWTerm25 (s : State) : Answer := acceptCode (termCode .white 25) s

/-- `W_TERM_26`, the code word `0010011`. -/
def execWTerm26 (s : State) : Answer := acceptCode (termCode .white 26) s

/-- `W_TERM_27`, the code word `0100100`. -/
def execWTerm27 (s : State) : Answer := acceptCode (termCode .white 27) s

/-- `W_TERM_28`, the code word `0011000`. -/
def execWTerm28 (s : State) : Answer := acceptCode (termCode .white 28) s

/-- `W_TERM_29`, the code word `00000010`. -/
def execWTerm29 (s : State) : Answer := acceptCode (termCode .white 29) s

/-- `W_TERM_30`, the code word `00000011`. -/
def execWTerm30 (s : State) : Answer := acceptCode (termCode .white 30) s

/-- `W_TERM_31`, the code word `00011010`. -/
def execWTerm31 (s : State) : Answer := acceptCode (termCode .white 31) s

/-- `W_TERM_32`, the code word `00011011`. -/
def execWTerm32 (s : State) : Answer := acceptCode (termCode .white 32) s

/-- `W_TERM_33`, the code word `00010010`. -/
def execWTerm33 (s : State) : Answer := acceptCode (termCode .white 33) s

/-- `W_TERM_34`, the code word `00010011`. -/
def execWTerm34 (s : State) : Answer := acceptCode (termCode .white 34) s

/-- `W_TERM_35`, the code word `00010100`. -/
def execWTerm35 (s : State) : Answer := acceptCode (termCode .white 35) s

/-- `W_TERM_36`, the code word `00010101`. -/
def execWTerm36 (s : State) : Answer := acceptCode (termCode .white 36) s

/-- `W_TERM_37`, the code word `00010110`. -/
def execWTerm37 (s : State) : Answer := acceptCode (termCode .white 37) s

/-- `W_TERM_38`, the code word `00010111`. -/
def execWTerm38 (s : State) : Answer := acceptCode (termCode .white 38) s

/-- `W_TERM_39`, the code word `00101000`. -/
def execWTerm39 (s : State) : Answer := acceptCode (termCode .white 39) s

/-- `W_TERM_40`, the code word `00101001`. -/
def execWTerm40 (s : State) : Answer := acceptCode (termCode .white 40) s

/-- `W_TERM_41`, the code word `00101010`. -/
def execWTerm41 (s : State) : Answer := acceptCode (termCode .white 41) s

/-- `W_TERM_42`, the code word `00101011`. -/
def execWTerm42 (s : State) : Answer := acceptCode (termCode .white 42) s

/-- `W_TERM_43`, the code word `00101100`. -/
def execWTerm43 (s : State) : Answer := acceptCode (termCode .white 43) s

/-- `W_TERM_44`, the code word `00101101`. -/
def execWTerm44 (s : State) : Answer := acceptCode (termCode .white 44) s

/-- `W_TERM_45`, the code word `00000100`. -/
def execWTerm45 (s : State) : Answer := acceptCode (termCode .white 45) s

/-- `W_TERM_46`, the code word `00000101`. -/
def execWTerm46 (s : State) : Answer := acceptCode (termCode .white 46) s

/-- `W_TERM_47`, the code word `00001010`. -/
def execWTerm47 (s : State) : Answer := acceptCode (termCode .white 47) s

/-- `W_TERM_48`, the code word `00001011`. -/
def execWTerm48 (s : State) : Answer := acceptCode (termCode .white 48) s

/-- `W_TERM_49`, the code word `01010010`. -/
def execWTerm49 (s : State) : Answer := acceptCode (termCode .white 49) s

/-- `W_TERM_50`, the code word `01010011`. -/
def execWTerm50 (s : State) : Answer := acceptCode (termCode .white 50) s

/-- `W_TERM_51`, the code word `01010100`. -/
def execWTerm51 (s : State) : Answer := acceptCode (termCode .white 51) s

/-- `W_TERM_52`, the code word `01010101`. -/
def execWTerm52 (s : State) : Answer := acceptCode (termCode .white 52) s

/-- `W_TERM_53`, the code word `00100100`. -/
def execWTerm53 (s : State) : Answer := acceptCode (termCode .white 53) s

/-- `W_TERM_54`, the code word `00100101`. -/
def execWTerm54 (s : State) : Answer := acceptCode (termCode .white 54) s

/-- `W_TERM_55`, the code word `01011000`. -/
def execWTerm55 (s : State) : Answer := acceptCode (termCode .white 55) s

/-- `W_TERM_56`, the code word `01011001`. -/
def execWTerm56 (s : State) : Answer := acceptCode (termCode .white 56) s

/-- `W_TERM_57`, the code word `01011010`. -/
def execWTerm57 (s : State) : Answer := acceptCode (termCode .white 57) s

/-- `W_TERM_58`, the code word `01011011`. -/
def execWTerm58 (s : State) : Answer := acceptCode (termCode .white 58) s

/-- `W_TERM_59`, the code word `01001010`. -/
def execWTerm59 (s : State) : Answer := acceptCode (termCode .white 59) s

/-- `W_TERM_60`, the code word `01001011`. -/
def execWTerm60 (s : State) : Answer := acceptCode (termCode .white 60) s

/-- `W_TERM_61`, the code word `00110010`. -/
def execWTerm61 (s : State) : Answer := acceptCode (termCode .white 61) s

/-- `W_TERM_62`, the code word `00110011`. -/
def execWTerm62 (s : State) : Answer := acceptCode (termCode .white 62) s

/-- `W_TERM_63`, the code word `00110100`. -/
def execWTerm63 (s : State) : Answer := acceptCode (termCode .white 63) s

/-- `W_MAKEUP_64`, the code word `11011`. -/
def execWMakeup64 (s : State) : Answer := acceptCode (makeupCode .white 64) s

/-- `W_MAKEUP_128`, the code word `10010`. -/
def execWMakeup128 (s : State) : Answer := acceptCode (makeupCode .white 128) s

/-- `W_MAKEUP_192`, the code word `010111`. -/
def execWMakeup192 (s : State) : Answer := acceptCode (makeupCode .white 192) s

/-- `W_MAKEUP_256`, the code word `0110111`. -/
def execWMakeup256 (s : State) : Answer := acceptCode (makeupCode .white 256) s

/-- `W_MAKEUP_320`, the code word `00110110`. -/
def execWMakeup320 (s : State) : Answer := acceptCode (makeupCode .white 320) s

/-- `W_MAKEUP_384`, the code word `00110111`. -/
def execWMakeup384 (s : State) : Answer := acceptCode (makeupCode .white 384) s

/-- `W_MAKEUP_448`, the code word `01100100`. -/
def execWMakeup448 (s : State) : Answer := acceptCode (makeupCode .white 448) s

/-- `W_MAKEUP_512`, the code word `01100101`. -/
def execWMakeup512 (s : State) : Answer := acceptCode (makeupCode .white 512) s

/-- `W_MAKEUP_576`, the code word `01101000`. -/
def execWMakeup576 (s : State) : Answer := acceptCode (makeupCode .white 576) s

/-- `W_MAKEUP_640`, the code word `01100111`. -/
def execWMakeup640 (s : State) : Answer := acceptCode (makeupCode .white 640) s

/-- `W_MAKEUP_704`, the code word `011001100`. -/
def execWMakeup704 (s : State) : Answer := acceptCode (makeupCode .white 704) s

/-- `W_MAKEUP_768`, the code word `011001101`. -/
def execWMakeup768 (s : State) : Answer := acceptCode (makeupCode .white 768) s

/-- `W_MAKEUP_832`, the code word `011010010`. -/
def execWMakeup832 (s : State) : Answer := acceptCode (makeupCode .white 832) s

/-- `W_MAKEUP_896`, the code word `011010011`. -/
def execWMakeup896 (s : State) : Answer := acceptCode (makeupCode .white 896) s

/-- `W_MAKEUP_960`, the code word `011010100`. -/
def execWMakeup960 (s : State) : Answer := acceptCode (makeupCode .white 960) s

/-- `W_MAKEUP_1024`, the code word `011010101`. -/
def execWMakeup1024 (s : State) : Answer := acceptCode (makeupCode .white 1024) s

/-- `W_MAKEUP_1088`, the code word `011010110`. -/
def execWMakeup1088 (s : State) : Answer := acceptCode (makeupCode .white 1088) s

/-- `W_MAKEUP_1152`, the code word `011010111`. -/
def execWMakeup1152 (s : State) : Answer := acceptCode (makeupCode .white 1152) s

/-- `W_MAKEUP_1216`, the code word `011011000`. -/
def execWMakeup1216 (s : State) : Answer := acceptCode (makeupCode .white 1216) s

/-- `W_MAKEUP_1280`, the code word `011011001`. -/
def execWMakeup1280 (s : State) : Answer := acceptCode (makeupCode .white 1280) s

/-- `W_MAKEUP_1344`, the code word `011011010`. -/
def execWMakeup1344 (s : State) : Answer := acceptCode (makeupCode .white 1344) s

/-- `W_MAKEUP_1408`, the code word `011011011`. -/
def execWMakeup1408 (s : State) : Answer := acceptCode (makeupCode .white 1408) s

/-- `W_MAKEUP_1472`, the code word `010011000`. -/
def execWMakeup1472 (s : State) : Answer := acceptCode (makeupCode .white 1472) s

/-- `W_MAKEUP_1536`, the code word `010011001`. -/
def execWMakeup1536 (s : State) : Answer := acceptCode (makeupCode .white 1536) s

/-- `W_MAKEUP_1600`, the code word `010011010`. -/
def execWMakeup1600 (s : State) : Answer := acceptCode (makeupCode .white 1600) s

/-- `W_MAKEUP_1664`, the code word `011000`. -/
def execWMakeup1664 (s : State) : Answer := acceptCode (makeupCode .white 1664) s

/-- `W_MAKEUP_1728`, the code word `010011011`. -/
def execWMakeup1728 (s : State) : Answer := acceptCode (makeupCode .white 1728) s

/-- `EXT_MAKEUP_1792`, the code word `00000001000`. -/
def execExtMakeup1792 (s : State) : Answer := acceptCode (makeupCode .white 1792) s

/-- `EXT_MAKEUP_1856`, the code word `00000001100`. -/
def execExtMakeup1856 (s : State) : Answer := acceptCode (makeupCode .white 1856) s

/-- `EXT_MAKEUP_1920`, the code word `00000001101`. -/
def execExtMakeup1920 (s : State) : Answer := acceptCode (makeupCode .white 1920) s

/-- `EXT_MAKEUP_1984`, the code word `000000010010`. -/
def execExtMakeup1984 (s : State) : Answer := acceptCode (makeupCode .white 1984) s

/-- `EXT_MAKEUP_2048`, the code word `000000010011`. -/
def execExtMakeup2048 (s : State) : Answer := acceptCode (makeupCode .white 2048) s

/-- `EXT_MAKEUP_2112`, the code word `000000010100`. -/
def execExtMakeup2112 (s : State) : Answer := acceptCode (makeupCode .white 2112) s

/-- `EXT_MAKEUP_2176`, the code word `000000010101`. -/
def execExtMakeup2176 (s : State) : Answer := acceptCode (makeupCode .white 2176) s

/-- `EXT_MAKEUP_2240`, the code word `000000010110`. -/
def execExtMakeup2240 (s : State) : Answer := acceptCode (makeupCode .white 2240) s

/-- `EXT_MAKEUP_2304`, the code word `000000010111`. -/
def execExtMakeup2304 (s : State) : Answer := acceptCode (makeupCode .white 2304) s

/-- `EXT_MAKEUP_2368`, the code word `000000011100`. -/
def execExtMakeup2368 (s : State) : Answer := acceptCode (makeupCode .white 2368) s

/-- `EXT_MAKEUP_2432`, the code word `000000011101`. -/
def execExtMakeup2432 (s : State) : Answer := acceptCode (makeupCode .white 2432) s

/-- `EXT_MAKEUP_2496`, the code word `000000011110`. -/
def execExtMakeup2496 (s : State) : Answer := acceptCode (makeupCode .white 2496) s

/-- `EXT_MAKEUP_2560`, the code word `000000011111`. -/
def execExtMakeup2560 (s : State) : Answer := acceptCode (makeupCode .white 2560) s

/-- `EOL`, the code word `000000000001`. -/
def execEol (s : State) : Answer := acceptCode eolEntry s

/-- `B_TERM_0`, the code word `0000110111`. -/
def execBTerm0 (s : State) : Answer := acceptCode (termCode .black 0) s

/-- `B_TERM_1`, the code word `010`. -/
def execBTerm1 (s : State) : Answer := acceptCode (termCode .black 1) s

/-- `B_TERM_2`, the code word `11`. -/
def execBTerm2 (s : State) : Answer := acceptCode (termCode .black 2) s

/-- `B_TERM_3`, the code word `10`. -/
def execBTerm3 (s : State) : Answer := acceptCode (termCode .black 3) s

/-- `B_TERM_4`, the code word `011`. -/
def execBTerm4 (s : State) : Answer := acceptCode (termCode .black 4) s

/-- `B_TERM_5`, the code word `0011`. -/
def execBTerm5 (s : State) : Answer := acceptCode (termCode .black 5) s

/-- `B_TERM_6`, the code word `0010`. -/
def execBTerm6 (s : State) : Answer := acceptCode (termCode .black 6) s

/-- `B_TERM_7`, the code word `00011`. -/
def execBTerm7 (s : State) : Answer := acceptCode (termCode .black 7) s

/-- `B_TERM_8`, the code word `000101`. -/
def execBTerm8 (s : State) : Answer := acceptCode (termCode .black 8) s

/-- `B_TERM_9`, the code word `000100`. -/
def execBTerm9 (s : State) : Answer := acceptCode (termCode .black 9) s

/-- `B_TERM_10`, the code word `0000100`. -/
def execBTerm10 (s : State) : Answer := acceptCode (termCode .black 10) s

/-- `B_TERM_11`, the code word `0000101`. -/
def execBTerm11 (s : State) : Answer := acceptCode (termCode .black 11) s

/-- `B_TERM_12`, the code word `0000111`. -/
def execBTerm12 (s : State) : Answer := acceptCode (termCode .black 12) s

/-- `B_TERM_13`, the code word `00000100`. -/
def execBTerm13 (s : State) : Answer := acceptCode (termCode .black 13) s

/-- `B_TERM_14`, the code word `00000111`. -/
def execBTerm14 (s : State) : Answer := acceptCode (termCode .black 14) s

/-- `B_TERM_15`, the code word `000011000`. -/
def execBTerm15 (s : State) : Answer := acceptCode (termCode .black 15) s

/-- `B_TERM_16`, the code word `0000010111`. -/
def execBTerm16 (s : State) : Answer := acceptCode (termCode .black 16) s

/-- `B_TERM_17`, the code word `0000011000`. -/
def execBTerm17 (s : State) : Answer := acceptCode (termCode .black 17) s

/-- `B_TERM_18`, the code word `0000001000`. -/
def execBTerm18 (s : State) : Answer := acceptCode (termCode .black 18) s

/-- `B_TERM_19`, the code word `00001100111`. -/
def execBTerm19 (s : State) : Answer := acceptCode (termCode .black 19) s

/-- `B_TERM_20`, the code word `00001101000`. -/
def execBTerm20 (s : State) : Answer := acceptCode (termCode .black 20) s

/-- `B_TERM_21`, the code word `00001101100`. -/
def execBTerm21 (s : State) : Answer := acceptCode (termCode .black 21) s

/-- `B_TERM_22`, the code word `00000110111`. -/
def execBTerm22 (s : State) : Answer := acceptCode (termCode .black 22) s

/-- `B_TERM_23`, the code word `00000101000`. -/
def execBTerm23 (s : State) : Answer := acceptCode (termCode .black 23) s

/-- `B_TERM_24`, the code word `00000010111`. -/
def execBTerm24 (s : State) : Answer := acceptCode (termCode .black 24) s

/-- `B_TERM_25`, the code word `00000011000`. -/
def execBTerm25 (s : State) : Answer := acceptCode (termCode .black 25) s

/-- `B_TERM_26`, the code word `000011001010`. -/
def execBTerm26 (s : State) : Answer := acceptCode (termCode .black 26) s

/-- `B_TERM_27`, the code word `000011001011`. -/
def execBTerm27 (s : State) : Answer := acceptCode (termCode .black 27) s

/-- `B_TERM_28`, the code word `000011001100`. -/
def execBTerm28 (s : State) : Answer := acceptCode (termCode .black 28) s

/-- `B_TERM_29`, the code word `000011001101`. -/
def execBTerm29 (s : State) : Answer := acceptCode (termCode .black 29) s

/-- `B_TERM_30`, the code word `000001101000`. -/
def execBTerm30 (s : State) : Answer := acceptCode (termCode .black 30) s

/-- `B_TERM_31`, the code word `000001101001`. -/
def execBTerm31 (s : State) : Answer := acceptCode (termCode .black 31) s

/-- `B_TERM_32`, the code word `000001101010`. -/
def execBTerm32 (s : State) : Answer := acceptCode (termCode .black 32) s

/-- `B_TERM_33`, the code word `000001101011`. -/
def execBTerm33 (s : State) : Answer := acceptCode (termCode .black 33) s

/-- `B_TERM_34`, the code word `000011010010`. -/
def execBTerm34 (s : State) : Answer := acceptCode (termCode .black 34) s

/-- `B_TERM_35`, the code word `000011010011`. -/
def execBTerm35 (s : State) : Answer := acceptCode (termCode .black 35) s

/-- `B_TERM_36`, the code word `000011010100`. -/
def execBTerm36 (s : State) : Answer := acceptCode (termCode .black 36) s

/-- `B_TERM_37`, the code word `000011010101`. -/
def execBTerm37 (s : State) : Answer := acceptCode (termCode .black 37) s

/-- `B_TERM_38`, the code word `000011010110`. -/
def execBTerm38 (s : State) : Answer := acceptCode (termCode .black 38) s

/-- `B_TERM_39`, the code word `000011010111`. -/
def execBTerm39 (s : State) : Answer := acceptCode (termCode .black 39) s

/-- `B_TERM_40`, the code word `000001101100`. -/
def execBTerm40 (s : State) : Answer := acceptCode (termCode .black 40) s

/-- `B_TERM_41`, the code word `000001101101`. -/
def execBTerm41 (s : State) : Answer := acceptCode (termCode .black 41) s

/-- `B_TERM_42`, the code word `000011011010`. -/
def execBTerm42 (s : State) : Answer := acceptCode (termCode .black 42) s

/-- `B_TERM_43`, the code word `000011011011`. -/
def execBTerm43 (s : State) : Answer := acceptCode (termCode .black 43) s

/-- `B_TERM_44`, the code word `000001010100`. -/
def execBTerm44 (s : State) : Answer := acceptCode (termCode .black 44) s

/-- `B_TERM_45`, the code word `000001010101`. -/
def execBTerm45 (s : State) : Answer := acceptCode (termCode .black 45) s

/-- `B_TERM_46`, the code word `000001010110`. -/
def execBTerm46 (s : State) : Answer := acceptCode (termCode .black 46) s

/-- `B_TERM_47`, the code word `000001010111`. -/
def execBTerm47 (s : State) : Answer := acceptCode (termCode .black 47) s

/-- `B_TERM_48`, the code word `000001100100`. -/
def execBTerm48 (s : State) : Answer := acceptCode (termCode .black 48) s

/-- `B_TERM_49`, the code word `000001100101`. -/
def execBTerm49 (s : State) : Answer := acceptCode (termCode .black 49) s

/-- `B_TERM_50`, the code word `000001010010`. -/
def execBTerm50 (s : State) : Answer := acceptCode (termCode .black 50) s

/-- `B_TERM_51`, the code word `000001010011`. -/
def execBTerm51 (s : State) : Answer := acceptCode (termCode .black 51) s

/-- `B_TERM_52`, the code word `000000100100`. -/
def execBTerm52 (s : State) : Answer := acceptCode (termCode .black 52) s

/-- `B_TERM_53`, the code word `000000110111`. -/
def execBTerm53 (s : State) : Answer := acceptCode (termCode .black 53) s

/-- `B_TERM_54`, the code word `000000111000`. -/
def execBTerm54 (s : State) : Answer := acceptCode (termCode .black 54) s

/-- `B_TERM_55`, the code word `000000100111`. -/
def execBTerm55 (s : State) : Answer := acceptCode (termCode .black 55) s

/-- `B_TERM_56`, the code word `000000101000`. -/
def execBTerm56 (s : State) : Answer := acceptCode (termCode .black 56) s

/-- `B_TERM_57`, the code word `000001011000`. -/
def execBTerm57 (s : State) : Answer := acceptCode (termCode .black 57) s

/-- `B_TERM_58`, the code word `000001011001`. -/
def execBTerm58 (s : State) : Answer := acceptCode (termCode .black 58) s

/-- `B_TERM_59`, the code word `000000101011`. -/
def execBTerm59 (s : State) : Answer := acceptCode (termCode .black 59) s

/-- `B_TERM_60`, the code word `000000101100`. -/
def execBTerm60 (s : State) : Answer := acceptCode (termCode .black 60) s

/-- `B_TERM_61`, the code word `000001011010`. -/
def execBTerm61 (s : State) : Answer := acceptCode (termCode .black 61) s

/-- `B_TERM_62`, the code word `000001100110`. -/
def execBTerm62 (s : State) : Answer := acceptCode (termCode .black 62) s

/-- `B_TERM_63`, the code word `000001100111`. -/
def execBTerm63 (s : State) : Answer := acceptCode (termCode .black 63) s

/-- `B_MAKEUP_64`, the code word `0000001111`. -/
def execBMakeup64 (s : State) : Answer := acceptCode (makeupCode .black 64) s

/-- `B_MAKEUP_128`, the code word `000011001000`. -/
def execBMakeup128 (s : State) : Answer := acceptCode (makeupCode .black 128) s

/-- `B_MAKEUP_192`, the code word `000011001001`. -/
def execBMakeup192 (s : State) : Answer := acceptCode (makeupCode .black 192) s

/-- `B_MAKEUP_256`, the code word `000001011011`. -/
def execBMakeup256 (s : State) : Answer := acceptCode (makeupCode .black 256) s

/-- `B_MAKEUP_320`, the code word `000000110011`. -/
def execBMakeup320 (s : State) : Answer := acceptCode (makeupCode .black 320) s

/-- `B_MAKEUP_384`, the code word `000000110100`. -/
def execBMakeup384 (s : State) : Answer := acceptCode (makeupCode .black 384) s

/-- `B_MAKEUP_448`, the code word `000000110101`. -/
def execBMakeup448 (s : State) : Answer := acceptCode (makeupCode .black 448) s

/-- `B_MAKEUP_512`, the code word `0000001101100`. -/
def execBMakeup512 (s : State) : Answer := acceptCode (makeupCode .black 512) s

/-- `B_MAKEUP_576`, the code word `0000001101101`. -/
def execBMakeup576 (s : State) : Answer := acceptCode (makeupCode .black 576) s

/-- `B_MAKEUP_640`, the code word `0000001001010`. -/
def execBMakeup640 (s : State) : Answer := acceptCode (makeupCode .black 640) s

/-- `B_MAKEUP_704`, the code word `0000001001011`. -/
def execBMakeup704 (s : State) : Answer := acceptCode (makeupCode .black 704) s

/-- `B_MAKEUP_768`, the code word `0000001001100`. -/
def execBMakeup768 (s : State) : Answer := acceptCode (makeupCode .black 768) s

/-- `B_MAKEUP_832`, the code word `0000001001101`. -/
def execBMakeup832 (s : State) : Answer := acceptCode (makeupCode .black 832) s

/-- `B_MAKEUP_896`, the code word `0000001110010`. -/
def execBMakeup896 (s : State) : Answer := acceptCode (makeupCode .black 896) s

/-- `B_MAKEUP_960`, the code word `0000001110011`. -/
def execBMakeup960 (s : State) : Answer := acceptCode (makeupCode .black 960) s

/-- `B_MAKEUP_1024`, the code word `0000001110100`. -/
def execBMakeup1024 (s : State) : Answer := acceptCode (makeupCode .black 1024) s

/-- `B_MAKEUP_1088`, the code word `0000001110101`. -/
def execBMakeup1088 (s : State) : Answer := acceptCode (makeupCode .black 1088) s

/-- `B_MAKEUP_1152`, the code word `0000001110110`. -/
def execBMakeup1152 (s : State) : Answer := acceptCode (makeupCode .black 1152) s

/-- `B_MAKEUP_1216`, the code word `0000001110111`. -/
def execBMakeup1216 (s : State) : Answer := acceptCode (makeupCode .black 1216) s

/-- `B_MAKEUP_1280`, the code word `0000001010010`. -/
def execBMakeup1280 (s : State) : Answer := acceptCode (makeupCode .black 1280) s

/-- `B_MAKEUP_1344`, the code word `0000001010011`. -/
def execBMakeup1344 (s : State) : Answer := acceptCode (makeupCode .black 1344) s

/-- `B_MAKEUP_1408`, the code word `0000001010100`. -/
def execBMakeup1408 (s : State) : Answer := acceptCode (makeupCode .black 1408) s

/-- `B_MAKEUP_1472`, the code word `0000001010101`. -/
def execBMakeup1472 (s : State) : Answer := acceptCode (makeupCode .black 1472) s

/-- `B_MAKEUP_1536`, the code word `0000001011010`. -/
def execBMakeup1536 (s : State) : Answer := acceptCode (makeupCode .black 1536) s

/-- `B_MAKEUP_1600`, the code word `0000001011011`. -/
def execBMakeup1600 (s : State) : Answer := acceptCode (makeupCode .black 1600) s

/-- `B_MAKEUP_1664`, the code word `0000001100100`. -/
def execBMakeup1664 (s : State) : Answer := acceptCode (makeupCode .black 1664) s

/-- `B_MAKEUP_1728`, the code word `0000001100101`. -/
def execBMakeup1728 (s : State) : Answer := acceptCode (makeupCode .black 1728) s

end Sys2Proof.Machine
end

