-- ==== Sys2Proof/Machine/HufEnc.lean ====
section
/-! DEFINITION. The Huffman encoder (R130 to R138). -/

namespace Sys2Proof.Machine

/-- R132: the runs of the pixels that follow `n` pixels of the run of colour `c` under way. -/
def cutRuns (c : Polarity) (n : Nat) : List Polarity → List (Polarity × Nat)
  | [] => [(c, n)]
  | p :: ps => if p = c then cutRuns c (n + 1) ps else (c, n) :: cutRuns p 1 ps

/-- R132: `Runs(px)`, the maximal runs, colours alternating from white; a row starting with black starts with a white run of
length 0, and no other run is empty (R136). -/
def rowRuns : List Polarity → List (Polarity × Nat)
  | [] => []
  | px => cutRuns .white 0 px

/-- R133: the makeup values of a run and its remainder; `fuel` bounds the Extension 2560 codes, of which a run of `n` pixels
has at most `n / 2560`. -/
def splitRun : Nat → Nat → List Nat × Nat
  | 0, n => if 64 ≤ n then ([n / 64 * 64], n % 64) else ([], n)
  | fuel + 1, n =>
    if 2624 ≤ n then
      let (ms, r) := splitRun fuel (n - 2560)
      (2560 :: ms, r)
    else if 64 ≤ n then ([n / 64 * 64], n % 64) else ([], n)

/-- R133: the codes of one run in order: its makeup codes and exactly one terminating code. -/
def runCodes (c : Polarity) (n : Nat) : List Entry :=
  let (ms, r) := splitRun (n / 2560) n
  ms.map (makeupCode c) ++ [termCode c r]

/-- R133: `Put(e)` is `WriteBits(e.code, e.bit_length)`. -/
def HufEnc.put (cap : Nat) (h : HufEnc) (e : Entry) : Except ErrorKind HufEnc :=
  match h.bw.writeBits cap e.code.toNat e.bitLength with
  | .ok bw => .ok { h with bw := bw }
  | .error x => .error x

/-- Codes written one after the other. -/
def HufEnc.putAll (cap : Nat) : HufEnc → List Entry → Except ErrorKind HufEnc
  | h, [] => .ok h
  | h, e :: es =>
    match h.put cap e with
    | .ok h' => h'.putAll cap es
    | .error x => .error x

/-- R133: `EncodeRun(c, n)`; the colour becomes the other one. -/
def HufEnc.encodeRun (cap : Nat) (h : HufEnc) (run : Polarity × Nat) : Except ErrorKind HufEnc :=
  match h.putAll cap (runCodes run.1 run.2) with
  | .ok h' => .ok { h' with color := run.1.flip }
  | .error x => .error x

/-- R131: the runs of a row coded in order. -/
def HufEnc.encodeRuns (cap : Nat) : HufEnc → List (Polarity × Nat) → Except ErrorKind HufEnc
  | h, [] => .ok h
  | h, r :: rs =>
    match h.encodeRun cap r with
    | .ok h' => h'.encodeRuns cap rs
    | .error x => .error x

/-- R131, R135: one scanline, its runs and then EOL; the bit stream runs on from the line before (R137). -/
def HufEnc.encodeLine (cap : Nat) (h : HufEnc) (px : List Polarity) : Except ErrorKind HufEnc := do
  let h ← h.encodeRuns cap (rowRuns px)
  let h ← h.put cap eolEntry
  pure { h with trailingEols := 1, color := .white }

/-- R138: EOL codes until `HUF_RTC_EOLS` of them stand at the end; `n` is how many are missing. -/
def HufEnc.pad (cap : Nat) : Nat → HufEnc → Except ErrorKind HufEnc
  | 0, h => .ok h
  | n + 1, h =>
    match h.put cap eolEntry with
    | .ok h' => HufEnc.pad cap n { h' with trailingEols := h'.trailingEols + 1 }
    | .error x => .error x

/-- R130: `HUF_ENC_BEGIN columns`; it discards an open session (R312). -/
def execHufEncBegin (columns : Nat) (s : State) : Answer :=
  operation .hufEnc s fun s => s.complete .hufEnc do
    require (columnsOk columns)
    pure ({ s.openSession .hufEnc with hufEnc := some ⟨columns, BitWriter.fresh .msb, .white, 0⟩ }.finish .hufEnc .ok .nothing)

/-- R131: `HUF_ENC_LINE line`; the operand and session checks come first (R288), then the row's length. -/
def execHufEncLine (line : Line) (s : State) : Answer :=
  operation .hufEnc s fun s => s.complete .hufEnc do
    require line.ok
    let h ← requireSession s.hufEnc
    if (linePixels line).length ≠ h.columns then .error .pixelCountMismatch
    else
      let h' ← h.encodeLine s.params.outCapacity (linePixels line)
      pure ({ s with hufEnc := some h' }.finish .hufEnc .ok .nothing)

/-- R138: `HUF_ENC_END`, which returns the page and closes the session. -/
def execHufEncEnd (s : State) : Answer :=
  operation .hufEnc s fun s => s.complete .hufEnc do
    let h ← requireSession s.hufEnc
    let h' ← HufEnc.pad s.params.outCapacity (hufRtcEols - h.trailingEols) h
    let out ← h'.bw.flush s.params.outCapacity
    pure ((s.close .hufEnc).finish .hufEnc .ok (.bytes out))

end Sys2Proof.Machine
end

