-- ==== Sys2Proof/Machine/LzwEnc.lean ====
section
/-! DEFINITION. The LZW encoder (R180 to R188). -/

namespace Sys2Proof.Machine

/-- R184: `Widen()`, the code width after it. -/
def widen (next width : Nat) : Nat := if 2 ^ width ≤ next ∧ width < lzwMaxBits then width + 1 else width

/-- `EmitCode(k)` is `WriteBits(k, width)` (R181). -/
def LzwEnc.emitCode (p : Params) (c : LzwEnc) (k : Nat) : Except ErrorKind LzwEnc :=
  match c.bw.writeBits p.outCapacity k c.width with
  | .ok bw => .ok { c with bw := bw }
  | .error e => .error e

/-- R180: `Reset()`. -/
def LzwEnc.resetDict (c : LzwEnc) : LzwEnc := { c with dict := [], next := firstFree, width := lzwInitialBits }

/-- R184. -/
def LzwEnc.widened (c : LzwEnc) : LzwEnc := { c with width := widen c.next c.width }

/-- R43, R188: the code stored under exactly this key. -/
def LzwEnc.lookup (c : LzwEnc) (key : Nat × Byte) : Option Nat := (c.dict.find? fun r => r.1 == key).map (·.2)

/-- R183: the key is given the code `next`. -/
def LzwEnc.insert (c : LzwEnc) (key : Nat × Byte) : LzwEnc :=
  { c with dict := c.dict ++ [(key, c.next)], next := c.next + 1 }

/-- R183, R185: the new entry of a mismatch, or a clear where the table is full. -/
def LzwEnc.grow (p : Params) (c : LzwEnc) (key : Nat × Byte) : Except ErrorKind LzwEnc :=
  if c.next < lzwDictCap then .ok (c.insert key)
  else
    match c.emitCode p clearCode with
    | .ok c' => .ok c'.resetDict
    | .error e => .error e

/-- R181, R182: one byte of the input. -/
def LzwEnc.byte (p : Params) (c : LzwEnc) (b : Byte) : Except ErrorKind LzwEnc :=
  match c.pre with
  | none => .ok { c with pre := some b.toNat }
  | some k =>
    match c.lookup (k, b) with
    | some j => .ok { c with pre := some j }
    | none => do
      let c ← c.emitCode p k
      let c ← c.widened.grow p (k, b)
      pure { c with pre := some b.toNat }

/-- R186: the code of the pending match, `END_CODE` and the flush. -/
def LzwEnc.endOut (p : Params) (c : LzwEnc) : Except ErrorKind (List Byte) := do
  let c ← match c.pre with
    | none => pure c
    | some k => do
      let c ← c.emitCode p k
      pure c.widened
  let c ← c.emitCode p endCode
  c.bw.flush p.outCapacity

/-- One turn of the loop: one byte of the input, or the end. -/
def LzwEnc.advance (p : Params) (c : LzwEnc) : Progress LzwEnc :=
  match c.input[c.i]? with
  | some b => Progress.ofExcept (fun c' => .more { c' with i := c.i + 1 }) (c.byte p b)
  | none => Progress.ofExcept (fun out => .done c .ok (.bytes out)) (c.endOut p)

/-- R181, R187: the context after the leading `CLEAR_CODE`. -/
def LzwEnc.start (p : Params) (input : List Byte) : Except ErrorKind LzwEnc :=
  LzwEnc.emitCode p
    { bw := BitWriter.fresh .lsb, dict := [], next := firstFree, width := lzwInitialBits, pre := none,
      input := input, i := 0 } clearCode

/-- The whole of the operation. -/
def LzwEnc.run (p : Params) (input : List Byte) : Progress LzwEnc :=
  Progress.ofExcept (runLoop (LzwEnc.advance p) (input.length + 1)) (LzwEnc.start p input)

/-- R181: `LZW_ENC In`. -/
def execLzwEnc (input : List Byte) (s : State) : Answer :=
  operation .lzwEnc s fun s => settle .lzwEnc .lzwEnc (s.openSession .lzwEnc) (LzwEnc.run s.params input)

end Sys2Proof.Machine
end

