-- ==== Sys2Proof/Machine/LzwDec.lean ====
section
/-! DEFINITION. The LZW decoder (R190 to R197) and the LZW codes as instructions (R87). -/

namespace Sys2Proof.Machine

/-- R33: `string(k)` by the walk of the prefix chain, at most `fuel` steps; none where it meets an entry that is not
written (R42). -/
def lzwString (entries : List (Nat × Byte)) : Nat → Nat → Option (List Byte)
  | 0, k => if k < 256 then some [BitVec.ofNat 8 k] else none
  | fuel + 1, k =>
    if k < 256 then some [BitVec.ofNat 8 k]
    else if k < firstFree then none
    else
      match entries[k - firstFree]? with
      | some (p, b) => (lzwString entries fuel p).map fun s => s ++ [b]
      | none => none

/-- R191: the string of a code; the walk is at most as long as the dictionary. -/
def LzwDec.string (c : LzwDec) (k : Nat) : Option (List Byte) := lzwString c.entries c.entries.length k

/-- R194, R195: after a code that had a previous one, the new entry where there is room, and `Widen()`. -/
def LzwDec.grow (c : LzwDec) (head : Byte) : LzwDec :=
  match c.prev with
  | none => c
  | some p =>
    let c :=
      if c.next < lzwDictCap then { c with entries := c.entries ++ [(p, head)], next := c.next + 1 } else c
    { c with width := widen c.next c.width }

/-- R190: the string `s` of the code `k` is emitted, counted and entered, and `k` becomes the previous code. -/
def LzwDec.emitString (p : Params) (c : LzwDec) (k : Nat) (s : List Byte) : Progress LzwDec :=
  Progress.ofExcept
    (fun out =>
      let c := { c with out := out, produced := c.produced + s.length }
      if c.expected < c.produced then .raised .pixelCountMismatch
      else .more { c.grow (s.headD 0) with prev := some k })
    (emitAll p.outCapacity c.out s)

/-- R87: a literal byte. -/
def LzwDec.literal (p : Params) (c : LzwDec) (b : Byte) : Progress LzwDec := c.emitString p b.toNat [b]

/-- R192: `CLEAR_CODE`. -/
def LzwDec.clear (c : LzwDec) : Progress LzwDec :=
  .more { c with entries := [], next := firstFree, width := lzwInitialBits, prev := none }

/-- R197, R196: `END_CODE` and the check of the total. -/
def LzwDec.finish (c : LzwDec) : Progress LzwDec :=
  if c.produced ≠ c.expected then .raised .pixelCountMismatch else .done c .ok (.bytes c.out)

/-- R191: an assigned string. -/
def LzwDec.known (p : Params) (c : LzwDec) (k : Nat) : Progress LzwDec :=
  match c.string k with
  | some s => c.emitString p k s
  | none => .stuck .dictionaryUnwritten

/-- R193: the code `next`, the previous string with its own first byte. -/
def LzwDec.special (p : Params) (c : LzwDec) : Progress LzwDec :=
  match c.prev.bind c.string with
  | some s => c.emitString p c.next (s ++ [s.headD 0])
  | none => .stuck .dictionaryUnwritten

/-- R196: a code that is not resolvable. -/
def LzwDec.illegal : Progress LzwDec := .raised .corruptBitstream

/-- R190: what a code does. -/
def LzwDec.accept (p : Params) (c : LzwDec) : LzwTok → Progress LzwDec
  | .literal b => c.literal p b
  | .clear => c.clear
  | .stop => c.finish
  | .string k => c.known p k
  | .next => c.special p
  | .illegal _ => LzwDec.illegal

/-- R190, R196: the head of a turn reads one code of the current width; the end of the input there raises
CorruptBitstream. -/
def LzwDec.turn (c : LzwDec) : Turn LzwTok LzwDec :=
  match c.br.readBits c.width with
  | some (k, br) => .token (decodeLzw c.prev.isSome c.next k) { c with br := br }
  | none => .stop (.raised .corruptBitstream)

/-- One turn of the loop. -/
def LzwDec.advance (p : Params) (c : LzwDec) : Progress LzwDec := c.turn.take (LzwDec.accept p)

/-- R190, R45: the context as the operation opens it. -/
def LzwDec.fresh (input : List Byte) (expected : Nat) : LzwDec where
  br := BitReader.fresh .lsb input
  entries := []
  next := firstFree
  width := lzwInitialBits
  prev := none
  produced := 0
  expected := expected
  out := []

/-- The whole of the operation; each turn consumes at least 9 bits (R331). -/
def LzwDec.run (p : Params) (input : List Byte) (expected : Nat) : Progress LzwDec :=
  runLoop (LzwDec.advance p) (8 * input.length + 1) (LzwDec.fresh input expected)

/-- R190: `LZW_DEC In, expected`. -/
def execLzwDec (input : List Byte) (expected : Nat) (s : State) : Answer :=
  operation .lzwDec s fun s => settle .lzwDec .lzwDec (s.openSession .lzwDec) (LzwDec.run s.params input expected)

/-- An LZW code as an instruction: taken by the decoder in progress, if the decoder reads it so (`ok`). -/
def onLzwDec (s : State) (ok : LzwDec → Bool) (f : LzwDec → Progress LzwDec) : Answer :=
  match s.active with
  | some (.lzwDec c) => if ok c then settle .lzwDec .lzwDec s (f c) else .refused .tokenNotReadable
  | _ => .refused .tokenOutsideDecoder

/-- `LZW_LITERAL`. -/
def execLzwLiteral (b : Byte) (s : State) : Answer := onLzwDec s (fun _ => true) fun c => c.literal s.params b

/-- `LZW_CLEAR`. -/
def execLzwClear (s : State) : Answer := onLzwDec s (fun _ => true) LzwDec.clear

/-- `LZW_END`. -/
def execLzwEnd (s : State) : Answer := onLzwDec s (fun _ => true) LzwDec.finish

/-- R87: the decoder reads the code value `k` as this token: the value fits the current width and stands for it. -/
def LzwDec.reads (c : LzwDec) (k : Nat) (t : LzwTok) : Bool :=
  decide (k < 2 ^ c.width) && decide (decodeLzw c.prev.isSome c.next k = t)

/-- `LZW_STRING`: read so where a previous code exists and the code is assigned. -/
def execLzwString (k : Nat) (s : State) : Answer :=
  onLzwDec s (fun c => c.reads k (.string k)) fun c => c.known s.params k

/-- `LZW_NEXT`: read so where a previous code exists. -/
def execLzwNext (s : State) : Answer := onLzwDec s (fun c => c.reads c.next .next) fun c => c.special s.params

/-- `LZW_ILLEGAL`: read so above `next`, and from 258 up where no previous code exists. -/
def execLzwIllegal (k : Nat) (s : State) : Answer :=
  onLzwDec s (fun c => c.reads k (.illegal k)) fun _ => LzwDec.illegal

end Sys2Proof.Machine
end

