-- ==== Sys2Proof/Machine/SubBlock.lean ====
section
/-! DEFINITION. The sub-block framing (R88, R200 to R202) and its length bytes as instructions. -/

namespace Sys2Proof.Machine

/-- R35: a byte coder as its operation opens. -/
def ByteCoder.fresh (input : List Byte) : ByteCoder := ⟨input, 0, []⟩

/-- The bytes of `In` not yet read. -/
def ByteCoder.rest (c : ByteCoder) : List Byte := c.input.drop c.i

/-- The bytes are emitted and the cursor moves on. -/
def ByteCoder.emitAt (p : Params) (c : ByteCoder) (bytes : List Byte) (i : Nat) : Except ErrorKind ByteCoder :=
  match emitAll p.outCapacity c.out bytes with
  | .ok out => .ok { c with out := out, i := i }
  | .error e => .error e

/-! ## Packer -/

/-- R200: one turn: one sub-block, or the terminator and the end. -/
def sbPackTurn (p : Params) (c : ByteCoder) : Progress ByteCoder :=
  if c.i < c.input.length then
    let len := min subBlockMax (c.input.length - c.i)
    Progress.ofExcept .more (c.emitAt p (BitVec.ofNat 8 len :: c.rest.take len) (c.i + len))
  else
    Progress.ofExcept (fun out => .done c .ok (.bytes out)) (emit p.outCapacity c.out 0)

/-- The whole of the operation. -/
def sbPackRun (p : Params) (input : List Byte) : Progress ByteCoder :=
  runLoop (sbPackTurn p) (input.length + 1) (ByteCoder.fresh input)

/-- R200: `SB_PACK In`. -/
def execSbPack (input : List Byte) (s : State) : Answer :=
  operation .sbPack s fun s => settle .sbPack .sbPack (s.openSession .sbPack) (sbPackRun s.params input)

/-! ## Unpacker -/

/-- R201: a length byte has been read; its data bytes are copied, and too few of them raise CorruptBitstream. -/
def sbData (p : Params) (c : ByteCoder) (len : Byte) : Progress ByteCoder :=
  if c.input.length < c.i + len.toNat then .raised .corruptBitstream
  else Progress.ofExcept .more (c.emitAt p (c.rest.take len.toNat) (c.i + len.toNat))

/-- R201: the terminator has been read. -/
def sbStop (c : ByteCoder) : Progress ByteCoder := .done c .ok (.bytes c.out)

/-- R201: what a length byte does. -/
def sbAccept (p : Params) (c : ByteCoder) : SbTok → Progress ByteCoder
  | .length len => sbData p c len
  | .terminator => sbStop c

/-- R201: the head of a turn reads a length byte. -/
def sbTurn (c : ByteCoder) : Turn SbTok ByteCoder :=
  match c.input[c.i]? with
  | some b => .token (decodeSb b) { c with i := c.i + 1 }
  | none => .stop (.raised .corruptBitstream)

/-- One turn of the loop. -/
def sbUnpackTurn (p : Params) (c : ByteCoder) : Progress ByteCoder := (sbTurn c).take (sbAccept p)

/-- The whole of the operation. -/
def sbUnpackRun (p : Params) (input : List Byte) : Progress ByteCoder :=
  runLoop (sbUnpackTurn p) (input.length + 1) (ByteCoder.fresh input)

/-- R201: `SB_UNPACK In`. -/
def execSbUnpack (input : List Byte) (s : State) : Answer :=
  operation .sbUnpack s fun s => settle .sbUnpack .sbUnpack (s.openSession .sbUnpack) (sbUnpackRun s.params input)

/-- A length byte as an instruction: taken by the unpacker in progress. -/
def onSbUnpack (s : State) (f : ByteCoder → Progress ByteCoder) : Answer :=
  match s.active with
  | some (.sbUnpack c) => settle .sbUnpack .sbUnpack s (f c)
  | _ => .refused .tokenOutsideDecoder

/-- `SB_LENGTH`. -/
def execSbLength (len : Byte) (s : State) : Answer := onSbUnpack s fun c => sbData s.params c len

/-- `SB_TERMINATOR`. -/
def execSbTerminator (s : State) : Answer := onSbUnpack s sbStop

end Sys2Proof.Machine
end

