-- ==== Sys2Proof/Machine/PackBits.lean ====
section
/-! DEFINITION. The repeat/literal (PackBits) coder (R220 to R228) and its header bytes as instructions (R89). -/

namespace Sys2Proof.Machine

/-! ## Encoder -/

/-- R221: the length of the run of equal bytes at the front, at most `PB_MAX_REPEAT`. -/
def pbRunLength : List Byte → Nat
  | [] => 0
  | b :: bs => 1 + ((bs.take (pbMaxRepeat - 1)).takeWhile (· == b)).length

/-- R223: three equal bytes stand at the front. -/
def pbStartsRepeat : List Byte → Bool
  | a :: b :: c :: _ => a == b && b == c
  | _ => false

/-- R223: the length of the literal at the front, at most `fuel`: it stops before three equal bytes. -/
def pbLiteralLength : Nat → List Byte → Nat
  | 0, _ => 0
  | _, [] => 0
  | fuel + 1, b :: bs => if pbStartsRepeat (b :: bs) then 0 else 1 + pbLiteralLength fuel bs

/-- R221: one turn: one packet, or the end. -/
def pbEncTurn (p : Params) (c : ByteCoder) : Progress ByteCoder :=
  match c.rest with
  | [] => .done c .ok (.bytes c.out)
  | b :: bs =>
    let r := pbRunLength (b :: bs)
    if pbMinRepeat ≤ r then
      Progress.ofExcept .more (c.emitAt p [BitVec.ofNat 8 (257 - r), b] (c.i + r))
    else
      let n := pbLiteralLength pbMaxLiteral (b :: bs)
      Progress.ofExcept .more (c.emitAt p (BitVec.ofNat 8 (n - 1) :: (b :: bs).take n) (c.i + n))

/-- The whole of the operation. -/
def pbEncRun (p : Params) (input : List Byte) : Progress ByteCoder :=
  runLoop (pbEncTurn p) (input.length + 1) (ByteCoder.fresh input)

/-- R221: `PB_ENC In`. -/
def execPbEnc (input : List Byte) (s : State) : Answer :=
  operation .pbEnc s fun s => settle .pbEnc .pbEnc (s.openSession .pbEnc) (pbEncRun s.params input)

/-! ## Decoder -/

/-- R226: a chunk is checked against the declared total and emitted; the cursor stands at `i` after it. -/
def PbDec.chunk (p : Params) (c : PbDec) (chunk : List Byte) (i : Nat) : Progress PbDec :=
  if c.total < c.produced + chunk.length then .raised .pixelCountMismatch
  else
    Progress.ofExcept (fun out => .more { c with out := out, i := i, produced := c.produced + chunk.length })
      (emitAll p.outCapacity c.out chunk)

/-- R226: a literal header has been read; `n + 1` bytes follow. -/
def PbDec.literal (p : Params) (c : PbDec) (n : BitVec 7) : Progress PbDec :=
  let k := n.toNat + 1
  if c.input.length < c.i + k then .raised .pixelCountMismatch
  else c.chunk p ((c.input.drop c.i).take k) (c.i + k)

/-- R227: the header 0x80. -/
def PbDec.illegal80 : Progress PbDec := .raised .corruptBitstream

/-- R226: a repeat header `0x80 + h` has been read; the byte that follows stands for `257 - (0x80 + h)` copies. -/
def PbDec.rep (p : Params) (c : PbDec) (h : BitVec 7) : Progress PbDec :=
  match c.input[c.i]? with
  | some b => c.chunk p (List.replicate (129 - h.toNat) b) (c.i + 1)
  | none => .raised .pixelCountMismatch

/-- R226: what a header does. -/
def PbDec.accept (p : Params) (c : PbDec) : PbTok → Progress PbDec
  | .literal n => c.literal p n
  | .illegal80 => PbDec.illegal80
  | .rep h => c.rep p h

/-- R226: the head of a turn: the operation returns at the declared total, else a header is read. -/
def PbDec.turn (c : PbDec) : Turn PbTok PbDec :=
  if c.produced < c.total then
    match c.input[c.i]? with
    | some h => .token (decodePb h) { c with i := c.i + 1 }
    | none => .stop (.raised .pixelCountMismatch)
  else .stop (.done c .ok (.bytes c.out))

/-- One turn of the loop. -/
def PbDec.advance (p : Params) (c : PbDec) : Progress PbDec := c.turn.take (PbDec.accept p)

/-- The whole of the operation. -/
def PbDec.run (p : Params) (input : List Byte) (total : Nat) : Progress PbDec :=
  runLoop (PbDec.advance p) (input.length + 1) ⟨input, 0, total, 0, []⟩

/-- R226: `PB_DEC In, total`. -/
def execPbDec (input : List Byte) (total : Nat) (s : State) : Answer :=
  operation .pbDec s fun s => settle .pbDec .pbDec (s.openSession .pbDec) (PbDec.run s.params input total)

/-- A header byte as an instruction: taken by the decoder in progress. -/
def onPbDec (s : State) (f : PbDec → Progress PbDec) : Answer :=
  match s.active with
  | some (.pbDec c) => settle .pbDec .pbDec s (f c)
  | _ => .refused .tokenOutsideDecoder

/-- `PB_LITERAL`. -/
def execPbLiteral (n : BitVec 7) (s : State) : Answer := onPbDec s fun c => c.literal s.params n

/-- `PB_ILLEGAL_80`. -/
def execPbIllegal80 (s : State) : Answer := onPbDec s fun _ => PbDec.illegal80

/-- `PB_REPEAT`. -/
def execPbRepeat (h : BitVec 7) (s : State) : Answer := onPbDec s fun c => c.rep s.params h

end Sys2Proof.Machine
end

