-- ==== Sys2Proof/Machine/RunModel.lean ====
section
/-! DEFINITION. The run-model register (R20, R114 to R116) and the refusal of reserved opcodes (R72). -/

namespace Sys2Proof.Machine

/-- R116: the count of a stored run. -/
def Run.count (r : Run) : Nat := r.length.toNat + 1

/-- R114: `RM_SET sample, count`. -/
def execRmSet (sample : PixelSample) (count : Nat) (s : State) : Answer :=
  operation .none s fun s => s.complete .none do
    require (countOk count)
    pure ({ s with rm := some ⟨sample, BitVec.ofNat 16 (count - 1)⟩ }.finish .none .ok .nothing)

/-- R115: `RM_GET`; an unwritten register is refused. -/
def execRmGet (s : State) : Answer :=
  operation .none s fun s => s.complete .none do
    let r ← requireSession s.rm
    pure (s.finish .none .ok (.run r.sample r.count))

/-- R72: a reserved opcode writes `status = InvalidOperand` and has no other effect; it is no operation and takes no draw of
the environment (log 29). -/
def execReservedOpcode (_opcode : Byte) (s : State) : Answer :=
  match s.active with
  | some _ => .refused .contextBusy
  | none => .next (s.raise .none .invalidOperand)

end Sys2Proof.Machine
end

