-- ==== Sys2Proof/Machine/Dispatch.lean ====
section
/-! DEFINITION. The one dispatch of the machine: every constructor of `Instr` to its meaning. -/

namespace Sys2Proof.Machine

def exec (i : Instr) (s : State) : Host.Outcome State Fault Refusal :=
  match i with
  | .rmSet sample count => Sys2Proof.Machine.execRmSet sample count s
  | .rmGet => Sys2Proof.Machine.execRmGet s
  | .bwInit order => Sys2Proof.Machine.execBwInit order s
  | .bwWrite value width => Sys2Proof.Machine.execBwWrite value width s
  | .bwFlush => Sys2Proof.Machine.execBwFlush s
  | .brInit order input => Sys2Proof.Machine.execBrInit order input s
  | .brRead width => Sys2Proof.Machine.execBrRead width s
  | .hufEncBegin columns => Sys2Proof.Machine.execHufEncBegin columns s
  | .hufEncLine line => Sys2Proof.Machine.execHufEncLine line s
  | .hufEncEnd => Sys2Proof.Machine.execHufEncEnd s
  | .hufDecBegin input columns => Sys2Proof.Machine.execHufDecBegin input columns s
  | .hufDecLine => Sys2Proof.Machine.execHufDecLine s
  | .hufDecPage rows => Sys2Proof.Machine.execHufDecPage rows s
  | .lzwEnc input => Sys2Proof.Machine.execLzwEnc input s
  | .lzwDec input expected => Sys2Proof.Machine.execLzwDec input expected s
  | .sbPack input => Sys2Proof.Machine.execSbPack input s
  | .sbUnpack input => Sys2Proof.Machine.execSbUnpack input s
  | .pbEnc input => Sys2Proof.Machine.execPbEnc input s
  | .pbDec input total => Sys2Proof.Machine.execPbDec input total s
  | .cvEnc runs total => Sys2Proof.Machine.execCvEnc runs total s
  | .cvDec input total => Sys2Proof.Machine.execCvDec input total s
  | .a85EncByte b => Sys2Proof.Machine.execA85EncByte b s
  | .a85EncEnd => Sys2Proof.Machine.execA85EncEnd s
  | .a85Dec input => Sys2Proof.Machine.execA85Dec input s
  | .reservedOpcode opcode => Sys2Proof.Machine.execReservedOpcode opcode s
  | .wTerm0 => Sys2Proof.Machine.execWTerm0 s
  | .wTerm1 => Sys2Proof.Machine.execWTerm1 s
  | .wTerm2 => Sys2Proof.Machine.execWTerm2 s
  | .wTerm3 => Sys2Proof.Machine.execWTerm3 s
  | .wTerm4 => Sys2Proof.Machine.execWTerm4 s
  | .wTerm5 => Sys2Proof.Machine.execWTerm5 s
  | .wTerm6 => Sys2Proof.Machine.execWTerm6 s
  | .wTerm7 => Sys2Proof.Machine.execWTerm7 s
  | .wTerm8 => Sys2Proof.Machine.execWTerm8 s
  | .wTerm9 => Sys2Proof.Machine.execWTerm9 s
  | .wTerm10 => Sys2Proof.Machine.execWTerm10 s
  | .wTerm11 => Sys2Proof.Machine.execWTerm11 s
  | .wTerm12 => Sys2Proof.Machine.execWTerm12 s
  | .wTerm13 => Sys2Proof.Machine.execWTerm13 s
  | .wTerm14 => Sys2Proof.Machine.execWTerm14 s
  | .wTerm15 => Sys2Proof.Machine.execWTerm15 s
  | .wTerm16 => Sys2Proof.Machine.execWTerm16 s
  | .wTerm17 => Sys2Proof.Machine.execWTerm17 s
  | .wTerm18 => Sys2Proof.Machine.execWTerm18 s
  | .wTerm19 => Sys2Proof.Machine.execWTerm19 s
  | .wTerm20 => Sys2Proof.Machine.execWTerm20 s
  | .wTerm21 => Sys2Proof.Machine.execWTerm21 s
  | .wTerm22 => Sys2Proof.Machine.execWTerm22 s
  | .wTerm23 => Sys2Proof.Machine.execWTerm23 s
  | .wTerm24 => Sys2Proof.Machine.execWTerm24 s
  | .wTerm25 => Sys2Proof.Machine.execWTerm25 s
  | .wTerm26 => Sys2Proof.Machine.execWTerm26 s
  | .wTerm27 => Sys2Proof.Machine.execWTerm27 s
  | .wTerm28 => Sys2Proof.Machine.execWTerm28 s
  | .wTerm29 => Sys2Proof.Machine.execWTerm29 s
  | .wTerm30 => Sys2Proof.Machine.execWTerm30 s
  | .wTerm31 => Sys2Proof.Machine.execWTerm31 s
  | .wTerm32 => Sys2Proof.Machine.execWTerm32 s
  | .wTerm33 => Sys2Proof.Machine.execWTerm33 s
  | .wTerm34 => Sys2Proof.Machine.execWTerm34 s
  | .wTerm35 => Sys2Proof.Machine.execWTerm35 s
  | .wTerm36 => Sys2Proof.Machine.execWTerm36 s
  | .wTerm37 => Sys2Proof.Machine.execWTerm37 s
  | .wTerm38 => Sys2Proof.Machine.execWTerm38 s
  | .wTerm39 => Sys2Proof.Machine.execWTerm39 s
  | .wTerm40 => Sys2Proof.Machine.execWTerm40 s
  | .wTerm41 => Sys2Proof.Machine.execWTerm41 s
  | .wTerm42 => Sys2Proof.Machine.execWTerm42 s
  | .wTerm43 => Sys2Proof.Machine.execWTerm43 s
  | .wTerm44 => Sys2Proof.Machine.execWTerm44 s
  | .wTerm45 => Sys2Proof.Machine.execWTerm45 s
  | .wTerm46 => Sys2Proof.Machine.execWTerm46 s
  | .wTerm47 => Sys2Proof.Machine.execWTerm47 s
  | .wTerm48 => Sys2Proof.Machine.execWTerm48 s
  | .wTerm49 => Sys2Proof.Machine.execWTerm49 s
  | .wTerm50 => Sys2Proof.Machine.execWTerm50 s
  | .wTerm51 => Sys2Proof.Machine.execWTerm51 s
  | .wTerm52 => Sys2Proof.Machine.execWTerm52 s
  | .wTerm53 => Sys2Proof.Machine.execWTerm53 s
  | .wTerm54 => Sys2Proof.Machine.execWTerm54 s
  | .wTerm55 => Sys2Proof.Machine.execWTerm55 s
  | .wTerm56 => Sys2Proof.Machine.execWTerm56 s
  | .wTerm57 => Sys2Proof.Machine.execWTerm57 s
  | .wTerm58 => Sys2Proof.Machine.execWTerm58 s
  | .wTerm59 => Sys2Proof.Machine.execWTerm59 s
  | .wTerm60 => Sys2Proof.Machine.execWTerm60 s
  | .wTerm61 => Sys2Proof.Machine.execWTerm61 s
  | .wTerm62 => Sys2Proof.Machine.execWTerm62 s
  | .wTerm63 => Sys2Proof.Machine.execWTerm63 s
  | .wMakeup64 => Sys2Proof.Machine.execWMakeup64 s
  | .wMakeup128 => Sys2Proof.Machine.execWMakeup128 s
  | .wMakeup192 => Sys2Proof.Machine.execWMakeup192 s
  | .wMakeup256 => Sys2Proof.Machine.execWMakeup256 s
  | .wMakeup320 => Sys2Proof.Machine.execWMakeup320 s
  | .wMakeup384 => Sys2Proof.Machine.execWMakeup384 s
  | .wMakeup448 => Sys2Proof.Machine.execWMakeup448 s
  | .wMakeup512 => Sys2Proof.Machine.execWMakeup512 s
  | .wMakeup576 => Sys2Proof.Machine.execWMakeup576 s
  | .wMakeup640 => Sys2Proof.Machine.execWMakeup640 s
  | .wMakeup704 => Sys2Proof.Machine.execWMakeup704 s
  | .wMakeup768 => Sys2Proof.Machine.execWMakeup768 s
  | .wMakeup832 => Sys2Proof.Machine.execWMakeup832 s
  | .wMakeup896 => Sys2Proof.Machine.execWMakeup896 s
  | .wMakeup960 => Sys2Proof.Machine.execWMakeup960 s
  | .wMakeup1024 => Sys2Proof.Machine.execWMakeup1024 s
  | .wMakeup1088 => Sys2Proof.Machine.execWMakeup1088 s
  | .wMakeup1152 => Sys2Proof.Machine.execWMakeup1152 s
  | .wMakeup1216 => Sys2Proof.Machine.execWMakeup1216 s
  | .wMakeup1280 => Sys2Proof.Machine.execWMakeup1280 s
  | .wMakeup1344 => Sys2Proof.Machine.execWMakeup1344 s
  | .wMakeup1408 => Sys2Proof.Machine.execWMakeup1408 s
  | .wMakeup1472 => Sys2Proof.Machine.execWMakeup1472 s
  | .wMakeup1536 => Sys2Proof.Machine.execWMakeup1536 s
  | .wMakeup1600 => Sys2Proof.Machine.execWMakeup1600 s
  | .wMakeup1664 => Sys2Proof.Machine.execWMakeup1664 s
  | .wMakeup1728 => Sys2Proof.Machine.execWMakeup1728 s
  | .extMakeup1792 => Sys2Proof.Machine.execExtMakeup1792 s
  | .extMakeup1856 => Sys2Proof.Machine.execExtMakeup1856 s
  | .extMakeup1920 => Sys2Proof.Machine.execExtMakeup1920 s
  | .extMakeup1984 => Sys2Proof.Machine.execExtMakeup1984 s
  | .extMakeup2048 => Sys2Proof.Machine.execExtMakeup2048 s
  | .extMakeup2112 => Sys2Proof.Machine.execExtMakeup2112 s
  | .extMakeup2176 => Sys2Proof.Machine.execExtMakeup2176 s
  | .extMakeup2240 => Sys2Proof.Machine.execExtMakeup2240 s
  | .extMakeup2304 => Sys2Proof.Machine.execExtMakeup2304 s
  | .extMakeup2368 => Sys2Proof.Machine.execExtMakeup2368 s
  | .extMakeup2432 => Sys2Proof.Machine.execExtMakeup2432 s
  | .extMakeup2496 => Sys2Proof.Machine.execExtMakeup2496 s
  | .extMakeup2560 => Sys2Proof.Machine.execExtMakeup2560 s
  | .eol => Sys2Proof.Machine.execEol s
  | .bTerm0 => Sys2Proof.Machine.execBTerm0 s
  | .bTerm1 => Sys2Proof.Machine.execBTerm1 s
  | .bTerm2 => Sys2Proof.Machine.execBTerm2 s
  | .bTerm3 => Sys2Proof.Machine.execBTerm3 s
  | .bTerm4 => Sys2Proof.Machine.execBTerm4 s
  | .bTerm5 => Sys2Proof.Machine.execBTerm5 s
  | .bTerm6 => Sys2Proof.Machine.execBTerm6 s
  | .bTerm7 => Sys2Proof.Machine.execBTerm7 s
  | .bTerm8 => Sys2Proof.Machine.execBTerm8 s
  | .bTerm9 => Sys2Proof.Machine.execBTerm9 s
  | .bTerm10 => Sys2Proof.Machine.execBTerm10 s
  | .bTerm11 => Sys2Proof.Machine.execBTerm11 s
  | .bTerm12 => Sys2Proof.Machine.execBTerm12 s
  | .bTerm13 => Sys2Proof.Machine.execBTerm13 s
  | .bTerm14 => Sys2Proof.Machine.execBTerm14 s
  | .bTerm15 => Sys2Proof.Machine.execBTerm15 s
  | .bTerm16 => Sys2Proof.Machine.execBTerm16 s
  | .bTerm17 => Sys2Proof.Machine.execBTerm17 s
  | .bTerm18 => Sys2Proof.Machine.execBTerm18 s
  | .bTerm19 => Sys2Proof.Machine.execBTerm19 s
  | .bTerm20 => Sys2Proof.Machine.execBTerm20 s
  | .bTerm21 => Sys2Proof.Machine.execBTerm21 s
  | .bTerm22 => Sys2Proof.Machine.execBTerm22 s
  | .bTerm23 => Sys2Proof.Machine.execBTerm23 s
  | .bTerm24 => Sys2Proof.Machine.execBTerm24 s
  | .bTerm25 => Sys2Proof.Machine.execBTerm25 s
  | .bTerm26 => Sys2Proof.Machine.execBTerm26 s
  | .bTerm27 => Sys2Proof.Machine.execBTerm27 s
  | .bTerm28 => Sys2Proof.Machine.execBTerm28 s
  | .bTerm29 => Sys2Proof.Machine.execBTerm29 s
  | .bTerm30 => Sys2Proof.Machine.execBTerm30 s
  | .bTerm31 => Sys2Proof.Machine.execBTerm31 s
  | .bTerm32 => Sys2Proof.Machine.execBTerm32 s
  | .bTerm33 => Sys2Proof.Machine.execBTerm33 s
  | .bTerm34 => Sys2Proof.Machine.execBTerm34 s
  | .bTerm35 => Sys2Proof.Machine.execBTerm35 s
  | .bTerm36 => Sys2Proof.Machine.execBTerm36 s
  | .bTerm37 => Sys2Proof.Machine.execBTerm37 s
  | .bTerm38 => Sys2Proof.Machine.execBTerm38 s
  | .bTerm39 => Sys2Proof.Machine.execBTerm39 s
  | .bTerm40 => Sys2Proof.Machine.execBTerm40 s
  | .bTerm41 => Sys2Proof.Machine.execBTerm41 s
  | .bTerm42 => Sys2Proof.Machine.execBTerm42 s
  | .bTerm43 => Sys2Proof.Machine.execBTerm43 s
  | .bTerm44 => Sys2Proof.Machine.execBTerm44 s
  | .bTerm45 => Sys2Proof.Machine.execBTerm45 s
  | .bTerm46 => Sys2Proof.Machine.execBTerm46 s
  | .bTerm47 => Sys2Proof.Machine.execBTerm47 s
  | .bTerm48 => Sys2Proof.Machine.execBTerm48 s
  | .bTerm49 => Sys2Proof.Machine.execBTerm49 s
  | .bTerm50 => Sys2Proof.Machine.execBTerm50 s
  | .bTerm51 => Sys2Proof.Machine.execBTerm51 s
  | .bTerm52 => Sys2Proof.Machine.execBTerm52 s
  | .bTerm53 => Sys2Proof.Machine.execBTerm53 s
  | .bTerm54 => Sys2Proof.Machine.execBTerm54 s
  | .bTerm55 => Sys2Proof.Machine.execBTerm55 s
  | .bTerm56 => Sys2Proof.Machine.execBTerm56 s
  | .bTerm57 => Sys2Proof.Machine.execBTerm57 s
  | .bTerm58 => Sys2Proof.Machine.execBTerm58 s
  | .bTerm59 => Sys2Proof.Machine.execBTerm59 s
  | .bTerm60 => Sys2Proof.Machine.execBTerm60 s
  | .bTerm61 => Sys2Proof.Machine.execBTerm61 s
  | .bTerm62 => Sys2Proof.Machine.execBTerm62 s
  | .bTerm63 => Sys2Proof.Machine.execBTerm63 s
  | .bMakeup64 => Sys2Proof.Machine.execBMakeup64 s
  | .bMakeup128 => Sys2Proof.Machine.execBMakeup128 s
  | .bMakeup192 => Sys2Proof.Machine.execBMakeup192 s
  | .bMakeup256 => Sys2Proof.Machine.execBMakeup256 s
  | .bMakeup320 => Sys2Proof.Machine.execBMakeup320 s
  | .bMakeup384 => Sys2Proof.Machine.execBMakeup384 s
  | .bMakeup448 => Sys2Proof.Machine.execBMakeup448 s
  | .bMakeup512 => Sys2Proof.Machine.execBMakeup512 s
  | .bMakeup576 => Sys2Proof.Machine.execBMakeup576 s
  | .bMakeup640 => Sys2Proof.Machine.execBMakeup640 s
  | .bMakeup704 => Sys2Proof.Machine.execBMakeup704 s
  | .bMakeup768 => Sys2Proof.Machine.execBMakeup768 s
  | .bMakeup832 => Sys2Proof.Machine.execBMakeup832 s
  | .bMakeup896 => Sys2Proof.Machine.execBMakeup896 s
  | .bMakeup960 => Sys2Proof.Machine.execBMakeup960 s
  | .bMakeup1024 => Sys2Proof.Machine.execBMakeup1024 s
  | .bMakeup1088 => Sys2Proof.Machine.execBMakeup1088 s
  | .bMakeup1152 => Sys2Proof.Machine.execBMakeup1152 s
  | .bMakeup1216 => Sys2Proof.Machine.execBMakeup1216 s
  | .bMakeup1280 => Sys2Proof.Machine.execBMakeup1280 s
  | .bMakeup1344 => Sys2Proof.Machine.execBMakeup1344 s
  | .bMakeup1408 => Sys2Proof.Machine.execBMakeup1408 s
  | .bMakeup1472 => Sys2Proof.Machine.execBMakeup1472 s
  | .bMakeup1536 => Sys2Proof.Machine.execBMakeup1536 s
  | .bMakeup1600 => Sys2Proof.Machine.execBMakeup1600 s
  | .bMakeup1664 => Sys2Proof.Machine.execBMakeup1664 s
  | .bMakeup1728 => Sys2Proof.Machine.execBMakeup1728 s
  | .lzwLiteral c => Sys2Proof.Machine.execLzwLiteral c s
  | .lzwClear => Sys2Proof.Machine.execLzwClear s
  | .lzwEnd => Sys2Proof.Machine.execLzwEnd s
  | .lzwString k => Sys2Proof.Machine.execLzwString k s
  | .lzwNext => Sys2Proof.Machine.execLzwNext s
  | .lzwIllegal k => Sys2Proof.Machine.execLzwIllegal k s
  | .sbLength len => Sys2Proof.Machine.execSbLength len s
  | .sbTerminator => Sys2Proof.Machine.execSbTerminator s
  | .pbLiteral n => Sys2Proof.Machine.execPbLiteral n s
  | .pbIllegal80 => Sys2Proof.Machine.execPbIllegal80 s
  | .pbRepeat h => Sys2Proof.Machine.execPbRepeat h s
  | .cvPacket value k => Sys2Proof.Machine.execCvPacket value k s
  | .a85Digit d => Sys2Proof.Machine.execA85Digit d s
  | .a85Zero => Sys2Proof.Machine.execA85Zero s
  | .a85End => Sys2Proof.Machine.execA85End s
  | .a85Linebreak => Sys2Proof.Machine.execA85Linebreak s
  | .a85Whitespace b => Sys2Proof.Machine.execA85Whitespace b s
  | .a85Illegal b => Sys2Proof.Machine.execA85Illegal b s

end Sys2Proof.Machine
end

