-- ==== Sys2Proof/Machine/Fetch.lean ====
section
/-! DEFINITION. What the block does next: between operations it takes the host's next command (R55); inside an operation it
reads the next token of the stream, or takes a turn in which no token is read. And the placing of one instruction where it
is read next. -/

namespace Sys2Proof.Machine

/-- What stands at the head of a step. -/
inductive Fetch where
  /-- no operation is in progress and no command is waiting -/
  | idle
  /-- an instruction is read, with the state after reading it -/
  | instr (i : Instr) (s : State)
  /-- a turn in which no instruction is read: an encoder's turn, the end of a loop, a read that fails -/
  | turn (a : Answer)

/-- The next token of a single-operation decoder. -/
def fetchToken {τ α : Type} (u : Session) (mk : α → Active) (name : τ → Instr) (s : State) : Turn τ α → Fetch
  | .token t c => .instr (name t) { s with active := some (mk c) }
  | .stop p => .turn (settle u mk s p)

/-- R71: the session of an opcode's unit, `none` for the run-model operations. -/
def opcodeSession : Opcode → Session
  | .rmSet | .rmGet => .none
  | .bwInit | .bwWrite | .bwFlush => .bitWriter
  | .brInit | .brRead => .bitReader
  | .hufEncBegin | .hufEncLine | .hufEncEnd => .hufEnc
  | .hufDecBegin | .hufDecLine | .hufDecPage => .hufDec
  | .lzwEnc => .lzwEnc
  | .lzwDec => .lzwDec
  | .sbPack => .sbPack
  | .sbUnpack => .sbUnpack
  | .pbEnc => .pbEnc
  | .pbDec => .pbDec
  | .cvEnc => .cvEnc
  | .cvDec => .cvDec
  | .a85EncByte | .a85EncEnd => .a85Enc
  | .a85Dec => .a85Dec

/-- The session of the operation a command word names; a reserved opcode names none. -/
def sessionOfOpcode (opcode : Byte) : Session := ((decodeOpcode opcode).map opcodeSession).getD .none

/-- R72: an operation whose operand values do not make an instruction (a `value` above u16, a `b` above u8, or values that are
not of the kinds R71 gives the opcode, log 1) is refused as one with an operand out of range is: its draw comes first (R282,
R288), then InvalidOperand. -/
def refuseOperands (opcode : Byte) (s : State) : Answer :=
  operation (sessionOfOpcode opcode) s fun s => .next (s.raise (sessionOfOpcode opcode) .invalidOperand)

/-- R55, R71: the next command of the host. -/
def fetchCommand (s : State) : Fetch :=
  match s.queue with
  | [] => .idle
  | c :: q =>
    match decode (.command c.opcode c.operands) with
    | .ok i => .instr i { s with queue := q }
    | .error _ => .turn (refuseOperands c.opcode { s with queue := q })

/-- The next turn of the Huffman decoder. -/
def fetchHuf (s : State) (mode : HufMode) (phase : HufPhase) : Fetch :=
  match s.hufDec with
  | none => .turn (.refused .tokenOutsideDecoder)
  | some d =>
    match HufRun.turn ⟨d, mode, phase⟩ with
    | .token e r => .instr e.instr { s with hufDec := some r.dec }
    | .stop p => .turn (settleHuf s p)

/-- The head of a step. While an operation is in progress no command is taken: the queue waits until it has ended (R55), so a
step never issues the second operation that R320 speaks of (the model's choice, log 5). -/
def fetch (s : State) : Fetch :=
  match s.active with
  | none => fetchCommand s
  | some (.hufDec mode phase) => fetchHuf s mode phase
  | some (.lzwEnc c) => .turn (settle .lzwEnc .lzwEnc s (c.advance s.params))
  | some (.lzwDec c) => fetchToken .lzwDec .lzwDec LzwTok.instr s c.turn
  | some (.sbPack c) => .turn (settle .sbPack .sbPack s (sbPackTurn s.params c))
  | some (.sbUnpack c) => fetchToken .sbUnpack .sbUnpack SbTok.instr s (sbTurn c)
  | some (.pbEnc c) => .turn (settle .pbEnc .pbEnc s (pbEncTurn s.params c))
  | some (.pbDec c) => fetchToken .pbDec .pbDec PbTok.instr s c.turn
  | some (.cvEnc c) => .turn (settle .cvEnc .cvEnc s (c.advance s.params))
  | some (.cvDec c) => fetchToken .cvDec .cvDec (fun t => .cvPacket t.1 t.2) s (c.turn s.params)
  | some (.a85Dec c) => fetchToken .a85Dec .a85Dec A85Tok.instr s c.turn

/-- The state with one piece of input placed where the next step reads it: a command at the head of the queue, a stream piece
as the whole remaining stream of a decoder of its unit, which stands at a token boundary (log 19). -/
def State.place (s : State) : Code → State
  | .command opcode operands => { s with active := none, queue := ⟨opcode, operands⟩ :: s.queue }
  | .huf c bits =>
    { s with
      hufDec := some { HufDec.fresh (packBits .msb bits) maxColumns with color := c }
      active := some (.hufDec .line (.code (c == .white))) }
  | .lzw known next k =>
    let width := if k < 512 then lzwInitialBits else lzwMaxBits
    { s with
      active := some (.lzwDec { LzwDec.fresh (packBits .lsb (lsbBits width k)) (if k = endCode then 0 else 1) with
        width := width, next := next, entries := List.replicate (next - firstFree) (0, 0)
        prev := if known then some 0 else none }) }
  | .subBlock b => { s with active := some (.sbUnpack ⟨b :: List.replicate b.toNat 0, 0, []⟩) }
  | .packBits h => { s with active := some (.pbDec ⟨h :: List.replicate 128 0, 0, 128, 0, []⟩) }
  | .countValue _ bytes => { s with active := some (.cvDec ⟨bytes, 0, 256, 0, []⟩) }
  | .ascii85 c follow => { s with active := some (.a85Dec ⟨c :: follow.toList, 0, [], []⟩) }

end Sys2Proof.Machine
end

