-- ==== Sys2Proof/Machine/Step.lean ====
section
/-! DEFINITION. One step of the block. Between operations a step runs one command of the host from its first statement to
its end (R55, U24); from a state inside an operation a step is one turn of its loop, the execution of one stream token. -/

namespace Sys2Proof.Machine

/-- One step. A block with nothing to do stays as it is (log 2). -/
def step (s : State) : Host.Outcome State Fault Refusal :=
  match fetch s with
  | .idle => .next s
  | .instr i s' => exec i s'
  | .turn a => a

/-- Steps until no operation is in progress, at most `fuel` of them. -/
def stepsToEnd : Nat → State → Answer
  | 0, s =>
    match s.active with
    | none => .next s
    | some _ => .fault .outOfFuel
  | fuel + 1, s =>
    match s.active with
    | none => .next s
    | some _ =>
      match step s with
      | .next t => stepsToEnd fuel t
      | o => o

/-- The state with an instruction of spec/opcode_table.json placed where the next step reads it (log 18, 19). -/
def State.withFetchWord (s : State) (nbits w : Nat) : State :=
  match codeOfTableWord nbits w with
  | some c => s.place c
  | none => s

end Sys2Proof.Machine
end

