-- ==== Sys2Proof/Machine/Pseudo.lean ====
section
/-! DEFINITION. The three pseudo-operations of the assembler (R73), as the operations they expand to. -/

namespace Sys2Proof.Machine

/-- Instructions executed one after the other, up to the first that answers no next state. -/
def execAll : List Instr → State → Answer
  | [], s => .next s
  | i :: is, s =>
    match exec i s with
    | .next t => execAll is t
    | o => o

/-- R73: `HUF_ENC_PAGE columns, [r_1, ..., r_k]`. -/
def hufEncPage (columns : Nat) (lines : List Line) : List Instr :=
  .hufEncBegin columns :: lines.map Instr.hufEncLine ++ [.hufEncEnd]

/-- R73: `A85_ENC [b_1, ..., b_n]`. -/
def a85Enc (bytes : List Byte) : List Instr := bytes.map Instr.a85EncByte ++ [.a85EncEnd]

/-- R73: `GIF_LZW In`, `LZW_ENC In` followed by `SB_PACK` of its output; an encoding that fails leaves its status. -/
def gifLzw (input : List Byte) (s : State) : Answer :=
  match exec (.lzwEnc input) s with
  | .next t =>
    match t.result with
    | .bytes out => exec (.sbPack out) t
    | _ => .next t
  | o => o

end Sys2Proof.Machine
end

