-- ==== Sys2Proof/Safety.lean ====
section
/-! DEFINITION. The terms in which claims are made: the ranges the spec gives the registers (R20 to R38), a state between
operations, an operation without allocation failure, the sessions an instruction may write, and the contents of streams as
the format rules (R74 to R91) describe them, written from those rules and not from the operations. -/

namespace Sys2Proof.Machine

/-! ## The ranges of the registers -/

/-- R26: `nbits` is 0 to 7, the positions of `acc` not yet placed are 0, and `Out` is within `OUT_CAPACITY` (R62). -/
def BitWriter.wf (p : Params) (b : BitWriter) : Bool :=
  decide (b.nbits < 8) && decide (b.out.length ≤ p.outCapacity) &&
  match b.order with
  | .msb => decide (b.acc.toNat % 2 ^ (8 - b.nbits) = 0)
  | .lsb => decide (b.acc.toNat < 2 ^ b.nbits)

/-- R27: `bitpos` counts bits of `In`. -/
def BitReader.wf (r : BitReader) : Bool := decide (r.bitpos ≤ 8 * r.input.length)

/-- R28, R130. -/
def HufEnc.wf (p : Params) (h : HufEnc) : Bool :=
  columnsOk h.columns && decide (h.bw.order = .msb) && h.bw.wf p && decide (h.trailingEols ≤ hufRtcEols)

/-- R29, R140: the row and the pending run fit in `columns`, a pending run is marked, at most two EOL-only scanlines are held
and every row delivered has `columns` pixels. -/
def HufDec.wf (d : HufDec) : Bool :=
  columnsOk d.columns && decide (d.br.order = .msb) && d.br.wf && decide (d.sbLen ≤ hufMaxCodeLen) &&
  decide (d.row.length + d.pending ≤ d.columns) && (d.pendingValid || decide (d.pending = 0)) &&
  decide (d.held < hufBlankLinesEop) && d.rowsOut.all fun r => decide (r.length = d.columns)

/-- R37: `pending_count` is 0 to 3, the other pending bytes are 0, `line_col` is 0 to 72. -/
def A85Enc.wf (p : Params) (c : A85Enc) : Bool :=
  decide (c.pendingCount < 4) && decide (c.lineCol ≤ a85LineWidth) && decide (c.out.length ≤ p.outCapacity) &&
  (List.finRange 4).all fun k => decide (k.val < c.pendingCount) || decide (c.pending[k] = 0)

/-- A code that is a string: a literal or an assigned code (R33). -/
def lzwIsString (next k : Nat) : Bool := decide (k < next) && (decide (k < 256) || decide (firstFree ≤ k))

/-- R31: `next` counts the entries of `dict`, which give the codes from 258 up, and the longest match is a string. -/
def LzwEnc.wf (p : Params) (c : LzwEnc) : Bool :=
  decide (c.bw.order = .lsb) && c.bw.wf p && decide (c.next = firstFree + c.dict.length) &&
  decide (c.next ≤ lzwDictCap) && decide (lzwInitialBits ≤ c.width) && decide (c.width ≤ lzwMaxBits) &&
  decide (c.i ≤ c.input.length) && (c.dict.all fun r => lzwIsString c.next r.2 && lzwIsString c.next r.1.1) &&
  (c.pre.all fun k => lzwIsString c.next k)

/-- R32, R33: `next` counts the written entries, the prefix of every entry is a string of a smaller code, the previous code is
a string, and no entry is written without a previous code. -/
def LzwDec.wf (p : Params) (c : LzwDec) : Bool :=
  decide (c.br.order = .lsb) && c.br.wf && decide (c.next = firstFree + c.entries.length) &&
  decide (c.next ≤ lzwDictCap) && decide (lzwInitialBits ≤ c.width) && decide (c.width ≤ lzwMaxBits) &&
  (c.entries.zipIdx.all fun e => lzwIsString (firstFree + e.2) e.1.1) &&
  (match c.prev with
   | none => decide (c.entries = [])
   | some k => lzwIsString c.next k) &&
  decide (c.produced = c.out.length) && decide (c.produced ≤ c.expected) && decide (c.out.length ≤ p.outCapacity)

/-- R35, R200, R201: the cursor stands inside `In` or at its end. -/
def ByteCoder.wf (p : Params) (c : ByteCoder) : Bool :=
  decide (c.i ≤ c.input.length) && decide (c.out.length ≤ p.outCapacity)

/-- R36: `produced` counts the bytes of `Out` and is at most `total`. -/
def PbDec.wf (p : Params) (c : PbDec) : Bool :=
  decide (c.i ≤ c.input.length) && decide (c.produced = c.out.length) && decide (c.produced ≤ c.total) &&
  decide (c.out.length ≤ p.outCapacity)

/-- R35, R231: the cursor stands inside the runs or at their end, and they are run-model values with samples of
`SAMPLE_BYTES` bytes. -/
def CvEnc.wf (p : Params) (c : CvEnc) : Bool :=
  decide (c.i ≤ c.runs.length) && c.runs.all (CvRun.ok p) && c.split.all (CvRun.ok p) && decide (c.out.length ≤ p.outCapacity)

/-- R36, R235: `produced` is the sum of the counts delivered and at most `total`. -/
def CvDec.wf (p : Params) (c : CvDec) : Bool :=
  decide (c.i ≤ c.input.length) && decide (c.produced = runTotal c.runs) && decide (c.produced ≤ c.total) &&
  c.runs.all (CvRun.ok p)

/-- R38: at most 4 digits wait, each 0 to 84. -/
def A85Dec.wf (p : Params) (c : A85Dec) : Bool :=
  decide (c.i ≤ c.input.length) && decide (c.group.length < 5) && (c.group.all fun d => decide (d ≤ 84)) &&
  decide (c.out.length ≤ p.outCapacity)

/-- The context of the operation in progress; one of the Huffman decoder works on its open session. -/
def Active.wf (p : Params) (session : Option HufDec) : Active → Bool
  | .hufDec _ _ => session.isSome
  | .lzwEnc c => c.wf p
  | .lzwDec c => c.wf p
  | .sbPack c => c.wf p
  | .sbUnpack c => c.wf p
  | .pbEnc c => c.wf p
  | .pbDec c => c.wf p
  | .cvEnc c => c.wf p
  | .cvDec c => c.wf p
  | .a85Dec c => c.wf p

/-- Every register of the state is in the range the spec gives it. -/
def State.wf (s : State) : Bool :=
  s.bw.all (BitWriter.wf s.params) && s.br.all BitReader.wf && s.hufEnc.all (HufEnc.wf s.params) &&
  s.hufDec.all HufDec.wf && s.a85Enc.all (A85Enc.wf s.params) && s.active.all (Active.wf s.params s.hufDec)

/-! ## Operations -/

/-- No operation is in progress and the environment draws no allocation failure for the next one: the premise of a claim that
an operation succeeds (R282, R320). -/
def State.ready (s : State) : Bool := decide (s.active = none) && !s.allocFails

/-- R21, R312: whose session an instruction belongs to: the Huffman code words, the rest of the table, to the decoder's. -/
def sessionOf : Instr → Session
  | .bwInit _ | .bwWrite _ _ | .bwFlush => .bitWriter
  | .brInit _ _ | .brRead _ => .bitReader
  | .hufEncBegin _ | .hufEncLine _ | .hufEncEnd => .hufEnc
  | .hufDecBegin _ _ | .hufDecLine | .hufDecPage _ => .hufDec
  | .a85EncByte _ | .a85EncEnd => .a85Enc
  | .lzwEnc _ => .lzwEnc
  | .lzwDec _ _ | .lzwLiteral _ | .lzwClear | .lzwEnd | .lzwString _ | .lzwNext | .lzwIllegal _ => .lzwDec
  | .sbPack _ => .sbPack
  | .sbUnpack _ | .sbLength _ | .sbTerminator => .sbUnpack
  | .pbEnc _ => .pbEnc
  | .pbDec _ _ | .pbLiteral _ | .pbIllegal80 | .pbRepeat _ => .pbDec
  | .cvEnc _ _ => .cvEnc
  | .cvDec _ _ | .cvPacket _ _ => .cvDec
  | .a85Dec _ | .a85Digit _ | .a85Zero | .a85End | .a85Linebreak | .a85Whitespace _ | .a85Illegal _ => .a85Dec
  | .rmSet _ _ | .rmGet | .reservedOpcode _ => .none
  | _ => .hufDec

/-- Whether an instruction is an operation of R71 (a command that is not reserved). -/
def isOperation (i : Instr) : Bool :=
  match i with
  | .reservedOpcode _ => false
  | _ => (encodeCommand i).isSome

/-- No operation is in progress and no draw of the environment fails, now or later. -/
def State.quiet (s : State) : Bool := decide (s.active = none) && s.allocDraws.all fun b => !b

/-- The state after an operation of the session that ends with this status and result, uses up its draw and changes nothing
else. -/
def State.answered (s : State) (u : Session) (st : Status) (r : Result) : State :=
  { s with allocDraws := s.allocDraws.tail, status := s.status.set u (some st), result := r }

/-- The state after a token that ends the operation in progress with this status and result and changes nothing else. -/
def State.ended (s : State) (u : Session) (st : Status) (r : Result) : State :=
  { s with active := none, status := s.status.set u (some st), result := r }

/-- R280: the statuses that are errors. -/
def Status.isError : Status → Bool
  | .ok | .okEarlyEnd => false
  | .allocationFailure | .corruptBitstream | .pixelCountMismatch | .invalidOperand => true

/-- R71: a result of the kind its column gives an operation; a byte decoder's has the declared total (R196, R226, R235). -/
def delivers (i : Instr) (r : Result) : Bool :=
  match i, r with
  | .rmGet, .run _ n => decide (1 ≤ n)
  | .brRead _, .value _ => true
  | .bwFlush, .bytes _ | .hufEncEnd, .bytes _ | .lzwEnc _, .bytes _ | .sbPack _, .bytes _ | .sbUnpack _, .bytes _ => true
  | .pbEnc _, .bytes _ | .cvEnc _ _, .bytes _ | .a85EncEnd, .bytes _ | .a85Dec _, .bytes _ => true
  | .lzwDec _ n, .bytes out | .pbDec _ n, .bytes out => decide (out.length = n)
  | .cvDec _ n, .runs rs => decide (runTotal rs = n)
  | .hufDecLine, .row _ | .hufDecLine, .eolOnly | .hufDecLine, .endOfInput => true
  | .hufDecPage _, .rows _ => true
  | .rmSet _ _, .nothing | .bwInit _, .nothing | .bwWrite _ _, .nothing | .brInit _ _, .nothing => true
  | .hufEncBegin _, .nothing | .hufEncLine _, .nothing | .hufDecBegin _ _, .nothing | .a85EncByte _, .nothing => true
  | _, _ => false

/-- The status of an error and the session it closes: all of R285 but for `BR_READ`, whose end of input leaves the reader open
(R107). -/
def closesSession (i : Instr) (st : Status) : Bool :=
  match i, st with
  | _, .invalidOperand => false
  | .brRead _, .corruptBitstream => false
  | _, _ => true

/-- The context with which an operation that has a loop starts it, none for an operation that ends without one. -/
def openedContext (i : Instr) (s : State) : Option Active :=
  match i with
  | .hufDecLine => s.hufDec.map fun _ => .hufDec .line .head
  | .hufDecPage rows => s.hufDec.map fun _ => .hufDec (.page rows) .head
  | .lzwEnc input => (LzwEnc.start s.params input).toOption.map .lzwEnc
  | .lzwDec input expected => some (.lzwDec (LzwDec.fresh input expected))
  | .sbPack input => some (.sbPack (ByteCoder.fresh input))
  | .sbUnpack input => some (.sbUnpack (ByteCoder.fresh input))
  | .pbEnc input => some (.pbEnc (ByteCoder.fresh input))
  | .pbDec input total => some (.pbDec ⟨input, 0, total, 0, []⟩)
  | .cvEnc runs total =>
    if runs.all (CvRun.ok s.params) && decide (runTotal runs = total) then some (.cvEnc (CvEnc.fresh runs)) else none
  | .cvDec input total => some (.cvDec ⟨input, 0, total, 0, []⟩)
  | .a85Dec input => some (.a85Dec ⟨input, 0, [], []⟩)
  | _ => none

/-- The state inside an operation that has opened its context and taken no turn: its draw is used up, and the status of a
session that it opened is unwritten (R310); that of the Huffman decoder's session, opened before it, is as it was. -/
def State.entered (s : State) (a : Active) : State :=
  { s with
    allocDraws := s.allocDraws.tail
    active := some a
    status := if a.session = .hufDec then s.status else s.status.set a.session none }

/-! ## Streams -/

/-- R52: the bits of a byte stream in an order. -/
def bitsOf (order : BitOrder) (bytes : List Byte) : List Bool := bytes.flatMap fun b => streamBits order 8 b.toNat

/-- R104: the bits a writer has been given: those of `Out` and those placed in `acc`. -/
def BitWriter.bits (b : BitWriter) : List Bool := bitsOf b.order b.out ++ (streamBits b.order 8 b.acc.toNat).take b.nbits

/-- R27: the bits a reader has not consumed. -/
def BitReader.bits (r : BitReader) : List Bool := (bitsOf r.order r.input).drop r.bitpos

/-- R54: bytes whose bits are these, followed by fewer than 8 zero bits. -/
def packs (order : BitOrder) (bits : List Bool) (bytes : List Byte) : Prop :=
  ∃ z < 8, bitsOf order bytes = bits ++ List.replicate z false

/-- R77: code words one after the other. -/
def codeBits (codes : List Entry) : List Bool := codes.flatMap Entry.bits

/-- R75: the run codes of one scanline. -/
def rowCodes (px : List Polarity) : List Entry := (rowRuns px).flatMap fun r => runCodes r.1 r.2

/-- R74, R75: the bits of one scanline: its run codes and EOL. -/
def lineBits (px : List Polarity) : List Bool := codeBits (rowCodes px) ++ eolEntry.bits

/-- R54, R146: fewer than 8 bits, all 0. -/
abbrev padding (bits : List Bool) : Prop := bits.length < 8 ∧ ∀ b ∈ bits, b = false

/-- R74: the bits of a page before the padding: its scanlines, and EOLs up to 6 in a row. -/
def pageBits (rows : List (List Polarity)) : List Bool :=
  rows.flatMap lineBits ++ codeBits (List.replicate (if rows = [] then 6 else 5) eolEntry)

/-- R142: the decoder context after a scanline of a row, read up to its EOL. -/
def HufDec.afterRow (d : HufDec) (px : List Polarity) : HufDec :=
  { d with
    br := { d.br with bitpos := d.br.bitpos + (lineBits px).length }
    color := (px.getLast?.map Polarity.flip).getD .white
    sbCode := 1, sbLen := 12, pending := 0, pendingValid := false, row := px }

/-- R149: the decoder context after a scanline of a row whose run codes, the last of them `e`, end at a padding tail. -/
def HufDec.afterLastRow (d : HufDec) (px : List Polarity) (e : Entry) : HufDec :=
  { d with
    br := { d.br with bitpos := d.br.bitpos + (codeBits (rowCodes px)).length }
    color := (px.getLast?.map Polarity.flip).getD .white
    sbCode := e.code, sbLen := e.bitLength, pending := 0, pendingValid := false, row := px }

/-- R150, R151: the decoder context after a row of a page: the row joins the rows delivered, the held scanlines before it as
white rows. -/
def HufDec.withRow (d : HufDec) (row : List Polarity) : HufDec :=
  { d with
    rowsOut := d.rowsOut ++ List.replicate d.held (List.replicate d.columns .white) ++ [row], held := 0 }

/-- R142: the decoder context after a scanline that is EOL only. -/
def HufDec.afterEol (d : HufDec) : HufDec :=
  { d with
    br := { d.br with bitpos := d.br.bitpos + 12 }
    color := .white, sbCode := 1, sbLen := 12, pending := 0, pendingValid := false, row := [] }

/-- R182: `w` is the longest string at the front of `w ++ tail` that an LZW dictionary knows; it knows every single byte and
its entries. -/
def lzwLongest (entries : List (List Byte)) (w tail : List Byte) : Prop :=
  w ≠ [] ∧ (w.length = 1 ∨ w ∈ entries) ∧
    ∀ n, w.length < n → n ≤ (w ++ tail).length → (w ++ tail).take n ∉ entries

/-- R183, R185: the strings of the codes from 258 up after the phrase `w`, which other phrases follow: `w` with the byte after
it is entered while there is room for it below 4096, else the dictionary is cleared. -/
def lzwEntered (entries : List (List Byte)) (w : List Byte) (rest : List (List Byte)) : List (List Byte) :=
  if 258 + entries.length < 4096 then entries ++ [w ++ rest.flatten.take 1] else []

/-- R182, R183, R185: each phrase is the longest string that the dictionary then knows. -/
def lzwPhrases (entries : List (List Byte)) : List (List Byte) → Prop
  | [] => True
  | w :: rest => lzwLongest entries w rest.flatten ∧ lzwPhrases (lzwEntered entries w rest) rest

/-- R182, R183: the code of a phrase: a byte itself, or the code of its entry. -/
def lzwCodeOf (entries : List (List Byte)) (w : List Byte) : Nat :=
  if w.length = 1 then (w.headD 0).toNat else 258 + entries.idxOf w

/-- R184, D33: the fewest bits, 9 to 12, whose codes go past `k`. The `j`-th data code after a clear has `256 + j` for `k`, so
that the 256th is the first written at 10 bits. -/
def lzwWidth (k : Nat) : Nat := if k < 512 then 9 else if k < 1024 then 10 else if k < 2048 then 11 else 12

/-- R181, R184 to R187: the codes of the phrases with their widths, a `CLEAR_CODE` in 12 bits where the table is full, and
`END_CODE`. -/
def lzwCodes (entries : List (List Byte)) : List (List Byte) → List (Nat × Nat)
  | [] => [(257, 9)]
  | [w] => [(lzwCodeOf entries w, lzwWidth (257 + entries.length)), (257, lzwWidth (258 + entries.length))]
  | w :: x :: rest =>
    (lzwCodeOf entries w, lzwWidth (257 + entries.length)) ::
      ((if 258 + entries.length < 4096 then [] else [(256, 12)]) ++ lzwCodes (lzwEntered entries w (x :: rest)) (x :: rest))

/-- R86, R187: the bits of the code stream of phrases: `CLEAR_CODE` in 9 bits, then their codes. -/
def lzwBits (phrases : List (List Byte)) : List Bool :=
  lsbBits 9 256 ++ (lzwCodes [] phrases).flatMap fun k => lsbBits k.2 k.1

/-- R190, R194, R195, R184: what the decoder's context becomes when the code `k` resolves to the string `s`. -/
def LzwDec.Took (c c' : LzwDec) (k : Nat) (s : List Byte) : Prop :=
  c'.br = c.br ∧ c'.expected = c.expected ∧ c'.out = c.out ++ s ∧ c'.produced = c.produced + s.length ∧ c'.prev = some k ∧
  match c.prev with
  | none => c'.entries = c.entries ∧ c'.next = c.next ∧ c'.width = c.width
  | some p =>
    (if c.next < 4096 then (∃ b, s.head? = some b ∧ c'.entries = c.entries ++ [(p, b)]) ∧ c'.next = c.next + 1
      else c'.entries = c.entries ∧ c'.next = c.next) ∧
    c'.width = if 2 ^ c.width ≤ c'.next ∧ c.width < 12 then c.width + 1 else c.width

/-- R88: sub-blocks, each its length byte and its data bytes. -/
def subBlocks (blocks : List (List Byte)) : List Byte := blocks.flatMap fun d => BitVec.ofNat 8 d.length :: d

/-- R89: a PackBits packet: literal bytes, or copies of one byte. -/
inductive PbPacket where
  | literal (bs : List Byte)
  | rep (n : Nat) (b : Byte)
deriving DecidableEq, Repr

/-- R89: the bytes of a packet. -/
def PbPacket.bytes : PbPacket → List Byte
  | .literal bs => BitVec.ofNat 8 (bs.length - 1) :: bs
  | .rep n b => [BitVec.ofNat 8 (257 - n), b]

/-- R89: the bytes a packet stands for. -/
def PbPacket.data : PbPacket → List Byte
  | .literal bs => bs
  | .rep n b => List.replicate n b

/-- R89: the packets that exist: literals of 1 to 128 bytes, repeats of 2 to 128 copies. -/
def PbPacket.legal : PbPacket → Bool
  | .literal bs => decide (1 ≤ bs.length) && decide (bs.length ≤ 128)
  | .rep n _ => decide (2 ≤ n) && decide (n ≤ 128)

/-- R89: the packets an encoder emits: literals of 1 to 127 bytes, repeats of 3 to 128 copies. -/
def PbPacket.emitted : PbPacket → Bool
  | .literal bs => decide (1 ≤ bs.length) && decide (bs.length ≤ 127)
  | .rep n _ => decide (3 ≤ n) && decide (n ≤ 128)

/-- A stream of packets, and the bytes it stands for. -/
def pbBytes (ps : List PbPacket) : List Byte := ps.flatMap PbPacket.bytes

/-- The bytes a stream of packets stands for. -/
def pbData (ps : List PbPacket) : List Byte := ps.flatMap PbPacket.data

/-- R90: count/value packets: a sample and a count from 1 to 256, stored less one. -/
def cvBytes (packets : List CvRun) : List Byte := packets.flatMap fun r => r.sample ++ [BitVec.ofNat 8 (r.count - 1)]

/-- R232: the packets of one run: as many of 255 as fit and one of the rest. -/
def cvSplit (r : CvRun) : List CvRun :=
  List.replicate (r.count / 255) { r with count := 255 } ++
    if r.count % 255 = 0 then [] else [{ r with count := r.count % 255 }]

/-- R53: the big-endian value of bytes. -/
def beValue (bytes : List Byte) : Nat := bytes.foldl (fun v b => v * 256 + b.toNat) 0

/-- R251, R252, R254: the data characters of a byte stream: of each four bytes `z` for zero and five digits otherwise; of a
last group of `k` the first `k + 1` digits of the group padded with zeros. -/
def a85Chars : List Byte → List Byte
  | a :: b :: c :: d :: rest =>
    (if beValue [a, b, c, d] = 0 then [0x7A] else (digits85 (beValue [a, b, c, d])).map char85) ++ a85Chars rest
  | [] => []
  | last => ((digits85 (beValue (last ++ List.replicate (4 - last.length) 0))).take (last.length + 1)).map char85

/-- R255: data characters with a line break before the 73rd of a line; `col` characters stand on the line already. -/
def wrapped (col : Nat) : List Byte → List Byte
  | [] => []
  | x :: xs => if col = 72 then 0x0A :: x :: wrapped 1 xs else x :: wrapped (col + 1) xs

/-- R255: the column after data characters. -/
def wrappedCol (col : Nat) : List Byte → Nat
  | [] => col
  | _ :: xs => if col = 72 then wrappedCol 1 xs else wrappedCol (col + 1) xs

/-- R91: the whole Ascii85 stream of a byte stream. -/
def a85Stream (bytes : List Byte) : List Byte := wrapped 0 (a85Chars bytes) ++ [0x7E, 0x3E]

end Sys2Proof.Machine
end

