-- ==== Sys2Proof/Certificates/Slice0/Obligations.lean ====
section
/-! DEFINITION. The statements for the provers. `s.ready` says that no operation is in progress and that the environment draws
no allocation failure for the next one, the premise R282 asks of a claim that an operation succeeds; `s.answered u st r` is
the state in which only the draw is used up and the status of the session `u` and the result are written, and `s.ended u st r`
the state after a token that ends its operation so; each equation below is then also the frame of its instruction. Where a
title says "the model's", the docstring names the log entry the clause rests on. Throughout, that an operation of a unit with
no open session writes the status register of its unit, and that a register outlives its session, is log 8; that an
encoder and its decoder, and the bit writer and the bit reader, are two units with a session each is log 31. -/

open Sys2Proof Sys2Proof.Machine

/-! ## Reset and the run-model register -/

/-- R310, R42: after reset no session is open, no operation is in progress, and the run-model register and every status are
unwritten; and in no state is the status of a session read while an operation of it is in progress. -/
def Obligations.ResetOpensNoSessionAndWritesNothing : Prop :=
  State.reset.bw = none ∧ State.reset.br = none ∧ State.reset.hufEnc = none ∧ State.reset.hufDec = none ∧
  State.reset.a85Enc = none ∧ State.reset.active = none ∧ State.reset.rm = none ∧
  (∀ u, State.reset.status.get u = none ∧ State.reset.readStatus u = none) ∧
  ∀ (s : State) (a : Active), s.active = some a → s.readStatus a.session = none

/-- R114: `RM_SET` stores the sample and the count less one; a count of 0 or above 65536 is refused. That it writes a status
register of its own, which belongs to no session, and no other is the model's (log 8). -/
def Obligations.RmSetStoresTheCountLessOne : Prop :=
  ∀ (s : State) (sample : PixelSample) (count : Nat), s.ready = true →
    (1 ≤ count ∧ count ≤ 65536 →
      exec (.rmSet sample count) s =
        .next { s.answered .none .ok .nothing with rm := some ⟨sample, BitVec.ofNat 16 (count - 1)⟩ } ∧
      (BitVec.ofNat 16 (count - 1)).toNat = count - 1) ∧
    (count = 0 ∨ 65536 < count → exec (.rmSet sample count) s = .next (s.answered .none .invalidOperand .nothing))

/-- R115: `RM_GET` returns the sample and the stored length plus one; an unwritten register is refused. That it writes the
status register of the operations of no session, and no other, is the model's (log 8). -/
def Obligations.RmGetReturnsTheLengthPlusOne : Prop :=
  ∀ s : State, s.ready = true →
    (s.rm = none → exec .rmGet s = .next (s.answered .none .invalidOperand .nothing)) ∧
    ∀ r, s.rm = some r → exec .rmGet s = .next (s.answered .none .ok (.run r.sample (r.length.toNat + 1)))

/-! ## Bit writer and bit reader -/

/-- R101, R105: `BW_INIT` and `BR_INIT` open a fresh writer or reader, whatever session of the unit was open; an order above 1
is refused. That opening a reader leaves an open writer as it is, and opening a writer an open reader, is the model's (log
31). -/
def Obligations.BitSessionsOpenFresh : Prop :=
  ∀ (s : State) (order : Nat) (input : List Byte), s.ready = true →
    (order = 0 →
      exec (.bwInit order) s = .next { s.answered .bitWriter .ok .nothing with bw := some ⟨.msb, 0, 0, []⟩ } ∧
      exec (.brInit order input) s = .next { s.answered .bitReader .ok .nothing with br := some ⟨.msb, input, 0⟩ }) ∧
    (order = 1 →
      exec (.bwInit order) s = .next { s.answered .bitWriter .ok .nothing with bw := some ⟨.lsb, 0, 0, []⟩ } ∧
      exec (.brInit order input) s = .next { s.answered .bitReader .ok .nothing with br := some ⟨.lsb, input, 0⟩ }) ∧
    (1 < order →
      exec (.bwInit order) s = .next (s.answered .bitWriter .invalidOperand .nothing) ∧
      exec (.brInit order input) s = .next (s.answered .bitReader .invalidOperand .nothing))

/-- R102: `BW_WRITE` appends the low `width` bits of the value in the writer's order; a byte that would exceed `OUT_CAPACITY`
ends it with AllocationFailure and closes the session (R62, R285); a width above 16 and a missing session are refused. -/
def Obligations.BwWriteAppendsTheLowBits : Prop :=
  ∀ (s : State) (value : Word16) (width : Nat), s.ready = true →
    (16 < width → exec (.bwWrite value width) s = .next (s.answered .bitWriter .invalidOperand .nothing)) ∧
    (s.bw = none → exec (.bwWrite value width) s = .next (s.answered .bitWriter .invalidOperand .nothing)) ∧
    ∀ b, s.bw = some b → b.wf s.params = true → width ≤ 16 →
      ((b.bits.length + width) / 8 ≤ s.params.outCapacity →
        ∃ b', exec (.bwWrite value width) s = .next { s.answered .bitWriter .ok .nothing with bw := some b' } ∧
          b'.order = b.order ∧ b'.wf s.params = true ∧ b'.bits = b.bits ++ streamBits b.order width value.toNat) ∧
      (s.params.outCapacity < (b.bits.length + width) / 8 →
        exec (.bwWrite value width) s = .next { s.answered .bitWriter .allocationFailure .nothing with bw := none })

/-- R104: after any sequence of writes of `T` bits in all, `|Out| = T div 8`, `nbits = T mod 8`, and the bits held are the
written bits in the order written. -/
def Obligations.WritesKeepEveryBitInOrder : Prop :=
  ∀ (s : State) (o : Nat) (order : BitOrder) (ws : List (Word16 × Nat)), s.quiet = true →
    (o = 0 ∧ order = .msb ∨ o = 1 ∧ order = .lsb) → (∀ w ∈ ws, w.2 ≤ 16) →
    (ws.map Prod.snd).sum / 8 ≤ s.params.outCapacity →
    ∃ t b, execAll (.bwInit o :: ws.map fun w => .bwWrite w.1 w.2) s = .next t ∧ t.bw = some b ∧ b.order = order ∧
      b.out.length = (ws.map Prod.snd).sum / 8 ∧ b.nbits = (ws.map Prod.snd).sum % 8 ∧
      b.bits = ws.flatMap fun w => streamBits order w.2 w.1.toNat

/-- R103, R54: `BW_FLUSH` returns the bits written, padded with zero bits to a byte, and closes the session. -/
def Obligations.BwFlushReturnsThePaddedBits : Prop :=
  ∀ s : State, s.ready = true →
    (s.bw = none → exec .bwFlush s = .next (s.answered .bitWriter .invalidOperand .nothing)) ∧
    ∀ b, s.bw = some b → b.wf s.params = true →
      ((b.bits.length + 7) / 8 ≤ s.params.outCapacity →
        ∃ out, exec .bwFlush s = .next { s.answered .bitWriter .ok (.bytes out) with bw := none } ∧ packs b.order b.bits out) ∧
      (s.params.outCapacity < (b.bits.length + 7) / 8 →
        exec .bwFlush s = .next { s.answered .bitWriter .allocationFailure .nothing with bw := none })

/-- R106, R107: `BR_READ` returns the value of the next `width` bits in the reader's order and moves past them; with fewer
left it consumes nothing, the status is CorruptBitstream and the reader stays open. -/
def Obligations.BrReadTakesTheNextBits : Prop :=
  ∀ (s : State) (width : Nat), s.ready = true →
    (16 < width → exec (.brRead width) s = .next (s.answered .bitReader .invalidOperand .nothing)) ∧
    (s.br = none → exec (.brRead width) s = .next (s.answered .bitReader .invalidOperand .nothing)) ∧
    ∀ r, s.br = some r → width ≤ 16 →
      (width ≤ r.bits.length →
        exec (.brRead width) s =
          .next { s.answered .bitReader .ok (.value (BitVec.ofNat 16 (streamValue r.order (r.bits.take width)))) with
            br := some { r with bitpos := r.bitpos + width } } ∧
        streamValue r.order (r.bits.take width) < 2 ^ width) ∧
      (r.bits.length < width → exec (.brRead width) s = .next (s.answered .bitReader .corruptBitstream .nothing))

/-- R108: a stream written by any `BW_WRITE`s and flushed, read in the same order with the same widths, gives each written
value masked to its width. -/
def Obligations.BitStreamRoundTrip : Prop :=
  ∀ (s : State) (o : Nat) (ws : List (Word16 × Nat)), s.quiet = true → o ≤ 1 → (∀ w ∈ ws, w.2 ≤ 16) →
    ((ws.map Prod.snd).sum + 7) / 8 ≤ s.params.outCapacity →
    ∃ t out, execAll (.bwInit o :: ws.map (fun w => .bwWrite w.1 w.2) ++ [.bwFlush]) s = .next t ∧
      t.status.bitWriter = some .ok ∧ t.result = .bytes out ∧
      ∀ (k : Nat) (w : Word16 × Nat), ws[k]? = some w → ∀ u : State, u.quiet = true →
        ∃ v, execAll (.brInit o out :: (ws.take (k + 1)).map fun w => .brRead w.2) u = .next v ∧
          v.status.bitReader = some .ok ∧ v.result = .value (BitVec.ofNat 16 (w.1.toNat % 2 ^ w.2))

/-! ## Huffman unit: sessions and encoder -/

/-- R130, R140: `HUF_ENC_BEGIN` and `HUF_DEC_BEGIN` open a fresh context, whatever session of the unit was open; `columns` of
0 or above 65536 are refused. That opening a decoder leaves an open encoder as it is, and opening an encoder an open decoder,
is the model's (log 31). -/
def Obligations.HuffmanSessionsOpenFresh : Prop :=
  ∀ (s : State) (columns : Nat) (input : List Byte), s.ready = true →
    (1 ≤ columns ∧ columns ≤ 65536 →
      exec (.hufEncBegin columns) s =
        .next { s.answered .hufEnc .ok .nothing with hufEnc := some ⟨columns, ⟨.msb, 0, 0, []⟩, .white, 0⟩ } ∧
      exec (.hufDecBegin input columns) s =
        .next { s.answered .hufDec .ok .nothing with
          hufDec := some ⟨columns, ⟨.msb, input, 0⟩, .white, 0, 0, 0, false, [], 0, []⟩ }) ∧
    (columns = 0 ∨ 65536 < columns →
      exec (.hufEncBegin columns) s = .next (s.answered .hufEnc .invalidOperand .nothing) ∧
      exec (.hufDecBegin input columns) s = .next (s.answered .hufDec .invalidOperand .nothing))

/-- R131, R135, R137: `HUF_ENC_LINE` appends the run codes of the row and one EOL to the bits written so far, with no
alignment; a row that is not `columns` long is a PixelCountMismatch; a run that is no run-model value (a count of 0; above
65536 by the model's log 13) and a missing session are refused. -/
def Obligations.HufEncLineAppendsTheRunCodesAndEol : Prop :=
  ∀ (s : State) (line : Line), s.ready = true →
    (s.hufEnc = none → exec (.hufEncLine line) s = .next (s.answered .hufEnc .invalidOperand .nothing)) ∧
    (line.ok = false → exec (.hufEncLine line) s = .next (s.answered .hufEnc .invalidOperand .nothing)) ∧
    ∀ h, s.hufEnc = some h → h.wf s.params = true → line.ok = true →
      ((linePixels line).length ≠ h.columns →
        exec (.hufEncLine line) s = .next { s.answered .hufEnc .pixelCountMismatch .nothing with hufEnc := none }) ∧
      ((linePixels line).length = h.columns →
        ((h.bw.bits ++ lineBits (linePixels line)).length / 8 ≤ s.params.outCapacity →
          ∃ bw, exec (.hufEncLine line) s =
              .next { s.answered .hufEnc .ok .nothing with hufEnc := some ⟨h.columns, bw, .white, 1⟩ } ∧
            bw.order = .msb ∧ bw.wf s.params = true ∧ bw.bits = h.bw.bits ++ lineBits (linePixels line)) ∧
        (s.params.outCapacity < (h.bw.bits ++ lineBits (linePixels line)).length / 8 →
          exec (.hufEncLine line) s = .next { s.answered .hufEnc .allocationFailure .nothing with hufEnc := none }))

/-- R132, R136: the runs of a row expand to the row, alternate in colour from white, and only the first can be empty, which it
is exactly where the row starts with black. -/
def Obligations.RowRunsAlternateFromWhite : Prop :=
  ∀ px : List Polarity,
    expand (rowRuns px) = px ∧
    (∀ k r, (rowRuns px)[k]? = some r →
      r.1 = (if k % 2 = 0 then .white else .black) ∧ (r.2 = 0 ↔ k = 0 ∧ px.head? = some .black))

/-- R133, R134: a run is coded as Extension 2560 codes while 2624 or more pixels remain, then one makeup or Extension code
where 64 or more remain, then exactly one terminating code; each is the entry of its colour's set with that run value. -/
def Obligations.OneRunIsMakeupsAndOneTerminatingCode : Prop :=
  ∀ (c : Polarity) (n : Nat), ∃ k m t : Nat, n = 2560 * k + m + t ∧ t < 64 ∧ m % 64 = 0 ∧ m ≤ 2560 ∧ (0 < k → 64 ≤ m) ∧
    runCodes c n =
      List.replicate k (makeupCode c 2560) ++ (if m = 0 then [] else [makeupCode c m]) ++ [termCode c t] ∧
    (∀ m', m' % 64 = 0 → 64 ≤ m' → m' ≤ 2560 →
      makeupCode c m' ∈ codeSet c ∧ (makeupCode c m').runValue = m' ∧
      (makeupCode c m').cls = if 1792 ≤ m' then .extension else if c = .white then .makeupWhite else .makeupBlack) ∧
    termCode c t ∈ codeSet c ∧ (termCode c t).runValue = t ∧
    (termCode c t).cls = if c = .white then .terminatingWhite else .terminatingBlack

/-- R138: `HUF_ENC_END` writes the EOLs missing from six in a row, returns the bits padded with zero bits to a byte, and
closes the session. -/
def Obligations.HufEncEndCompletesSixEols : Prop :=
  ∀ s : State, s.ready = true →
    (s.hufEnc = none → exec .hufEncEnd s = .next (s.answered .hufEnc .invalidOperand .nothing)) ∧
    ∀ h, s.hufEnc = some h → h.wf s.params = true →
      ∀ bits, bits = h.bw.bits ++ codeBits (List.replicate (6 - h.trailingEols) eolEntry) →
        ((bits.length + 7) / 8 ≤ s.params.outCapacity →
          ∃ out, exec .hufEncEnd s = .next { s.answered .hufEnc .ok (.bytes out) with hufEnc := none } ∧ packs .msb bits out) ∧
        (s.params.outCapacity < (bits.length + 7) / 8 →
          exec .hufEncEnd s = .next { s.answered .hufEnc .allocationFailure .nothing with hufEnc := none })

/-- R74, R137, R138: a whole page is its scanlines' run codes and EOLs in order, then EOLs up to six in a row, then fewer than
eight zero bits. -/
def Obligations.HuffmanPageStreamFormat : Prop :=
  ∀ (s : State) (columns : Nat) (lines : List Line), s.quiet = true → 1 ≤ columns → columns ≤ 65536 →
    (∀ l ∈ lines, l.ok = true ∧ (linePixels l).length = columns) →
    ((pageBits (lines.map linePixels)).length + 7) / 8 ≤ s.params.outCapacity →
    ∃ t out, execAll (hufEncPage columns lines) s = .next t ∧ t.status.hufEnc = some .ok ∧ t.result = .bytes out ∧
      t.hufEnc = none ∧ packs .msb (pageBits (lines.map linePixels)) out

/-! ## Huffman unit: decoder -/

/-- R142, R149: on the run codes of a row of `columns` pixels and an EOL, with anything after them, `HUF_DEC_LINE` returns the
row and stands after the EOL; on the run codes and a padding tail it returns the row without an EOL and stands before the
tail. -/
def Obligations.HufDecLineReadsAnEncodedRow : Prop :=
  ∀ (s : State) (d : HufDec) (px : List Polarity) (rest : List Bool), s.ready = true → s.hufDec = some d →
    d.br.order = .msb → px.length = d.columns →
    (d.br.bits = lineBits px ++ rest →
      exec .hufDecLine s = .next { s.answered .hufDec .ok (.row px) with hufDec := some (d.afterRow px) }) ∧
    ∀ e, (rowCodes px).getLast? = some e → d.br.bits = codeBits (rowCodes px) ++ rest → padding rest →
      exec .hufDecLine s = .next { s.answered .hufDec .ok (.row px) with hufDec := some (d.afterLastRow px e) }

/-- R142, R145, R146, R148: the other ends of `HUF_DEC_LINE` at the start of a scanline: an EOL gives EOL_ONLY; a padding tail
gives END_OF_INPUT and consumes nothing; bits that begin with no code of the white set are CorruptBitstream and close the
session; a missing session is refused. That EOL_ONLY and END_OF_INPUT leave the status OK is the model's (log 11). -/
def Obligations.HufDecLineWithoutARow : Prop :=
  ∀ s : State, s.ready = true →
    (s.hufDec = none → exec .hufDecLine s = .next (s.answered .hufDec .invalidOperand .nothing)) ∧
    ∀ d, s.hufDec = some d → d.br.order = .msb → 1 ≤ d.columns →
      (∀ rest, d.br.bits = eolEntry.bits ++ rest →
        exec .hufDecLine s = .next { s.answered .hufDec .ok .eolOnly with hufDec := some d.afterEol }) ∧
      (padding d.br.bits →
        exec .hufDecLine s = .next (s.answered .hufDec .ok .endOfInput)) ∧
      (¬ padding d.br.bits → (∀ e ∈ codeSet .white, ¬ e.bits <+: d.br.bits) →
        exec .hufDecLine s = .next { s.answered .hufDec .corruptBitstream .nothing with hufDec := none })

/-- R150 to R153: how `HUF_DEC_PAGE` ends: with its rows where as many as declared are there (none for `rows = 0`), early with
OK_EARLY_END at the third EOL-only scanline in a row, with PixelCountMismatch where the input ends before; a last row whose
run codes end at a padding tail counts without an EOL (R149); each closes the session. -/
def Obligations.HufDecPageEnds : Prop :=
  ∀ (s : State) (rows : Nat), s.ready = true →
    (s.hufDec = none → exec (.hufDecPage rows) s = .next (s.answered .hufDec .invalidOperand .nothing)) ∧
    ∀ d, s.hufDec = some d → d.br.order = .msb → 1 ≤ d.columns →
      (rows ≤ d.rowsOut.length + d.held →
        exec (.hufDecPage rows) s =
          .next { s.answered .hufDec .ok (.rows (d.rowsOut ++ List.replicate d.held (List.replicate d.columns .white))) with
            hufDec := none }) ∧
      (∀ rest, d.br.bits = codeBits (List.replicate (3 - d.held) eolEntry) ++ rest → d.held < 3 →
        d.rowsOut.length + 3 ≤ rows →
        exec (.hufDecPage rows) s = .next { s.answered .hufDec .okEarlyEnd (.rows d.rowsOut) with hufDec := none }) ∧
      (d.rowsOut.length + d.held < rows → padding d.br.bits →
        exec (.hufDecPage rows) s = .next { s.answered .hufDec .pixelCountMismatch .nothing with hufDec := none }) ∧
      ∀ px tail, px.length = d.columns → d.br.bits = codeBits (rowCodes px) ++ tail → padding tail →
        (rows = d.rowsOut.length + d.held + 1 →
          exec (.hufDecPage rows) s =
            .next { s.answered .hufDec .ok (.rows (d.withRow px).rowsOut) with hufDec := none }) ∧
        (d.rowsOut.length + d.held + 1 < rows →
          exec (.hufDecPage rows) s = .next { s.answered .hufDec .pixelCountMismatch .nothing with hufDec := none })

/-- R155, R151, R152: a page of `k` rows, encoded and decoded with `rows` declared, gives its rows with OK for `rows = k`; the
first of them for fewer; one or two white rows more for `k + 1` and `k + 2` (R151; the second half of R155 says otherwise, log
27); and its rows with OK_EARLY_END for `k + 3` and more. -/
def Obligations.HuffmanPageRoundTrip : Prop :=
  ∀ (s : State) (columns : Nat) (lines : List Line), s.quiet = true → 1 ≤ columns → columns ≤ 65536 →
    (∀ l ∈ lines, l.ok = true ∧ (linePixels l).length = columns) →
    ((pageBits (lines.map linePixels)).length + 7) / 8 ≤ s.params.outCapacity →
    ∃ t out, execAll (hufEncPage columns lines) s = .next t ∧ t.status.hufEnc = some .ok ∧ t.result = .bytes out ∧
      ∀ (u : State) (rows : Nat), u.quiet = true →
        ∃ v, execAll [.hufDecBegin out columns, .hufDecPage rows] u = .next v ∧ v.hufDec = none ∧
          v.status.hufDec = some (if rows < lines.length + 3 then .ok else .okEarlyEnd) ∧
          v.result = .rows ((lines.map linePixels).take rows ++
            List.replicate (if rows < lines.length + 3 then rows - lines.length else 0)
              (List.replicate columns .white))

/-- R76: in the set of one colour no code word is a prefix of another, so whatever follows a code word, the decoder reads that
code word and its instruction; lengths are 2 to 13 bits (12 for white), and white 23 and black 10, white 45 and black 13 share
their bits. -/
def Obligations.CodeSetsArePrefixFree : Prop :=
  (∀ c : Polarity,
    (codeSet c).Pairwise (fun a b => ¬ a.bits <+: b.bits ∧ ¬ b.bits <+: a.bits) ∧
    ∀ e ∈ codeSet c, 2 ≤ e.bitLength ∧ e.bitLength ≤ (if c = .white then 12 else 13) ∧
      e.bits.length = e.bitLength ∧ codeEntry e.instr = some e ∧
      ∀ rest, decodeEntry c (e.bits ++ rest) = .ok e ∧ decode (.huf c (e.bits ++ rest)) = .ok e.instr) ∧
  (termCode .white 23).bits = (termCode .black 10).bits ∧ (termCode .white 45).bits = (termCode .black 13).bits

/-- R144: a terminating code word of the current colour, read before the row is full, closes the run of that colour (the pending
makeup total and its own value) and flips the colour; a run past `columns` is CorruptBitstream (R149) and closes the session. -/
def Obligations.TerminatingCodesCloseTheRun : Prop :=
  ∀ (s : State) (i : Instr) (e : Entry) (d : HufDec) (mode : HufMode) (first : Bool), codeEntry i = some e →
    e.cls = (if d.color = .white then .terminatingWhite else .terminatingBlack) →
    s.active = some (.hufDec mode (.code first)) → s.hufDec = some d → d.row.length < d.columns →
    (d.row.length + d.pending + e.runValue ≤ d.columns →
      exec i s = .next { s with
        hufDec := some { d with
          row := d.row ++ List.replicate (d.pending + e.runValue) d.color
          color := if d.color = .white then .black else .white
          pending := 0, pendingValid := false }
        active := some (.hufDec mode (.code false)) }) ∧
    (d.columns < d.row.length + d.pending + e.runValue →
      exec i s = .next { s.ended .hufDec .corruptBitstream .nothing with hufDec := none })

/-- R147: a makeup code word of the current colour or an Extension code word adds its value to the pending run and neither
closes it nor flips the colour; a pending run past `columns` is CorruptBitstream (R149) and closes the session. -/
def Obligations.MakeupCodesAccumulate : Prop :=
  ∀ (s : State) (i : Instr) (e : Entry) (d : HufDec) (mode : HufMode) (first : Bool), codeEntry i = some e →
    (e.cls = .extension ∨ e.cls = (if d.color = .white then .makeupWhite else .makeupBlack)) →
    s.active = some (.hufDec mode (.code first)) → s.hufDec = some d → d.row.length < d.columns →
    (d.row.length + d.pending + e.runValue ≤ d.columns →
      exec i s = .next { s with
        hufDec := some { d with pending := d.pending + e.runValue, pendingValid := true }
        active := some (.hufDec mode (.code false)) }) ∧
    (d.columns < d.row.length + d.pending + e.runValue →
      exec i s = .next { s.ended .hufDec .corruptBitstream .nothing with hufDec := none })

/-- R148, R149, R142: EOL inside `HUF_DEC_LINE`: it ends a full row; before that it is CorruptBitstream with makeup pending,
EOL_ONLY as the first code, and otherwise ends the row padded with its last pixel, white if there is none. Any other code
word of the set after a full row is CorruptBitstream. That EOL_ONLY leaves the status OK is the model's (log 11). -/
def Obligations.EolEndsALine : Prop :=
  ∀ (s : State) (d : HufDec) (first : Bool), s.active = some (.hufDec .line (.code first)) → s.hufDec = some d →
    (d.row.length = d.columns →
      exec .eol s = .next (s.ended .hufDec .ok (.row d.row)) ∧
      ∀ i e, codeEntry i = some e → e ∈ codeSet d.color → e.cls ≠ .eol →
        exec i s = .next { s.ended .hufDec .corruptBitstream .nothing with hufDec := none }) ∧
    (d.row.length < d.columns → d.pendingValid = true →
      exec .eol s = .next { s.ended .hufDec .corruptBitstream .nothing with hufDec := none }) ∧
    (d.row.length < d.columns → d.pendingValid = false → first = true →
      exec .eol s = .next (s.ended .hufDec .ok .eolOnly)) ∧
    (d.row.length < d.columns → d.pendingValid = false → first = false →
      exec .eol s = .next (s.ended .hufDec .ok
        (.row (d.row ++ List.replicate (d.columns - d.row.length) (d.row.getLast?.getD .white)))))

/-- R150, R151, R152: EOL inside `HUF_DEC_PAGE`: a row that ends joins the page after the held scanlines, each a row of white
pixels; an EOL-only scanline is held, and the third in a row ends the page with OK_EARLY_END and the rows before them. After
a full row any other code word of the set is CorruptBitstream (R142, R149), and so is an EOL with makeup pending. -/
def Obligations.EolInsideAPage : Prop :=
  ∀ (s : State) (d : HufDec) (rows : Nat) (first : Bool), s.active = some (.hufDec (.page rows) (.code first)) →
    s.hufDec = some d →
    (∀ row, (d.row.length = d.columns ∧ row = d.row ∨
        d.row.length < d.columns ∧ d.pendingValid = false ∧ first = false ∧
          row = d.row ++ List.replicate (d.columns - d.row.length) (d.row.getLast?.getD .white)) →
      exec .eol s = .next { s with hufDec := some (d.withRow row), active := some (.hufDec (.page rows) .head) }) ∧
    (d.row.length = d.columns → ∀ i e, codeEntry i = some e → e ∈ codeSet d.color → e.cls ≠ .eol →
      exec i s = .next { s.ended .hufDec .corruptBitstream .nothing with hufDec := none }) ∧
    (d.row.length < d.columns → d.pendingValid = true →
      exec .eol s = .next { s.ended .hufDec .corruptBitstream .nothing with hufDec := none }) ∧
    (d.row.length < d.columns → d.pendingValid = false → first = true → d.held < 2 →
      exec .eol s = .next { s with
        hufDec := some { d with held := d.held + 1 }, active := some (.hufDec (.page rows) .head) }) ∧
    (d.row.length < d.columns → d.pendingValid = false → first = true → d.held = 2 →
      exec .eol s = .next { s.ended .hufDec .okEarlyEnd (.rows d.rowsOut) with hufDec := none })

/-! ## LZW and sub-blocks -/

/-- R190, R191, R193, R194, R195: a code that resolves to a string (a literal; an assigned code; the code `next`, the previous
string with its first byte) emits it, counts it, enters the new string where there is a previous code and room, widens by the
schedule, and becomes the previous code; a total above `expected` is PixelCountMismatch, an output above `OUT_CAPACITY`
AllocationFailure. -/
def Obligations.LzwCodesResolveToStrings : Prop :=
  ∀ (s : State) (c : LzwDec) (i : Instr) (k : Nat) (str : List Byte), s.active = some (.lzwDec c) → c.wf s.params = true →
    (i = .lzwLiteral (BitVec.ofNat 8 k) ∧ k < 256 ∧ str = [BitVec.ofNat 8 k] ∨
      i = .lzwString k ∧ c.prev ≠ none ∧ 258 ≤ k ∧ k < c.next ∧ k < 2 ^ c.width ∧ c.string k = some str ∨
      i = .lzwNext ∧ k = c.next ∧ k < 2 ^ c.width ∧ ∃ p q, c.prev = some p ∧ c.string p = some q ∧ str = q ++ q.take 1) →
    (c.out.length + str.length ≤ s.params.outCapacity →
      (c.produced + str.length ≤ c.expected →
        ∃ c', exec i s = .next { s with active := some (.lzwDec c') } ∧ c.Took c' k str ∧ c'.wf s.params = true) ∧
      (c.expected < c.produced + str.length →
        exec i s = .next (s.ended .lzwDec .pixelCountMismatch .nothing))) ∧
    (s.params.outCapacity < c.out.length + str.length →
      exec i s = .next (s.ended .lzwDec .allocationFailure .nothing))

/-- R33, R191: every literal and every assigned code of a decoder has a string: a literal its own byte, an assigned code the
string of its prefix and its suffix byte. -/
def Obligations.LzwStringsFollowThePrefixChain : Prop :=
  ∀ (p : Params) (c : LzwDec), c.wf p = true →
    (∀ k < 256, c.string k = some [BitVec.ofNat 8 k]) ∧
    ∀ k, 258 ≤ k → k < c.next →
      ∃ pre suf q, c.entries[k - 258]? = some (pre, suf) ∧ c.string pre = some q ∧ c.string k = some (q ++ [suf])

/-- R192, R196, R197: `CLEAR_CODE` empties the dictionary and starts again at 258 and 9 bits with no previous code; `END_CODE`
returns the output if it has `expected` bytes and is PixelCountMismatch otherwise; a code above `next`, or of 258 and up with
no previous code, is CorruptBitstream. -/
def Obligations.LzwClearEndAndIllegalCodes : Prop :=
  ∀ (s : State) (c : LzwDec), s.active = some (.lzwDec c) →
    exec .lzwClear s =
      .next { s with active := some (.lzwDec { c with entries := [], next := 258, width := 9, prev := none }) } ∧
    (c.produced = c.expected →
      exec .lzwEnd s = .next (s.ended .lzwDec .ok (.bytes c.out))) ∧
    (c.produced ≠ c.expected →
      exec .lzwEnd s = .next (s.ended .lzwDec .pixelCountMismatch .nothing)) ∧
    ∀ k, 258 ≤ k → k < 2 ^ c.width → (c.next < k ∨ c.prev = none) →
      exec (.lzwIllegal k) s = .next (s.ended .lzwDec .corruptBitstream .nothing)

/-- R198: for every byte stream, `LZW_ENC` completes and `LZW_DEC` of its output with the stream's length returns it. -/
def Obligations.LzwRoundTrip : Prop :=
  ∀ (s : State) (input : List Byte), s.ready = true → 3 * input.length + 8 ≤ s.params.outCapacity →
    ∃ out, exec (.lzwEnc input) s = .next (s.answered .lzwEnc .ok (.bytes out)) ∧
      ∀ u : State, u.ready = true → input.length ≤ u.params.outCapacity →
        exec (.lzwDec out input.length) u = .next (u.answered .lzwDec .ok (.bytes input))

/-- R187, R86: the code stream begins with `CLEAR_CODE` in 9 bits, ends with `END_CODE` in 9 to 12 bits and fewer than 8 zero
bits, and is `00 03 02` for the empty input. -/
def Obligations.LzwStreamStartsWithClearAndEndsWithEnd : Prop :=
  ∀ (s : State) (input : List Byte), s.ready = true →
    (3 * input.length + 8 ≤ s.params.outCapacity →
      ∃ out mid w, exec (.lzwEnc input) s = .next (s.answered .lzwEnc .ok (.bytes out)) ∧ 9 ≤ w ∧ w ≤ 12 ∧
        packs .lsb (lsbBits 9 256 ++ mid ++ lsbBits w 257) out) ∧
    (3 ≤ s.params.outCapacity → exec (.lzwEnc []) s = .next (s.answered .lzwEnc .ok (.bytes [0x00, 0x03, 0x02])))

/-- R200, R88: `SB_PACK` cuts the input into blocks of 255 bytes but for the last, each after its length byte, and ends with a
zero byte; it is AllocationFailure exactly where that is too long. -/
def Obligations.SbPackFillsBlocksOf255 : Prop :=
  ∀ (s : State) (input : List Byte), s.ready = true →
    ∃ blocks : List (List Byte), blocks.flatten = input ∧ (∀ d ∈ blocks, 1 ≤ d.length ∧ d.length ≤ 255) ∧
      (∀ d ∈ blocks.dropLast, d.length = 255) ∧
      ((subBlocks blocks).length + 1 ≤ s.params.outCapacity →
        exec (.sbPack input) s = .next (s.answered .sbPack .ok (.bytes (subBlocks blocks ++ [0])))) ∧
      (s.params.outCapacity < (subBlocks blocks).length + 1 →
        exec (.sbPack input) s = .next (s.answered .sbPack .allocationFailure .nothing))

/-- R201, R88: `SB_UNPACK` returns the data of blocks of any lengths up to the terminator, whatever follows it; blocks with no
terminator after them, or with a last block cut short, are CorruptBitstream. -/
def Obligations.SbUnpackReturnsTheData : Prop :=
  ∀ (s : State) (blocks : List (List Byte)), s.ready = true → (∀ d ∈ blocks, 1 ≤ d.length ∧ d.length ≤ 255) →
    blocks.flatten.length ≤ s.params.outCapacity →
    (∀ rest, exec (.sbUnpack (subBlocks blocks ++ 0 :: rest)) s = .next (s.answered .sbUnpack .ok (.bytes blocks.flatten))) ∧
    exec (.sbUnpack (subBlocks blocks)) s = .next (s.answered .sbUnpack .corruptBitstream .nothing) ∧
    ∀ (len : Byte) (part : List Byte), part.length < len.toNat →
      exec (.sbUnpack (subBlocks blocks ++ len :: part)) s = .next (s.answered .sbUnpack .corruptBitstream .nothing)

/-- R201, R235, R90: the tokens of the sub-block and the count/value decoders: a length byte copies its data bytes
(CorruptBitstream where they are short, AllocationFailure where they do not fit); the terminator returns the output; a packet
adds one run of `k + 1` samples (PixelCountMismatch above `total`). -/
def Obligations.SubBlockAndCountValueTokens : Prop :=
  (∀ (s : State) (c : ByteCoder) (len : Byte), s.active = some (.sbUnpack c) → c.wf s.params = true →
    (c.i + len.toNat ≤ c.input.length → c.out.length + len.toNat ≤ s.params.outCapacity →
      exec (.sbLength len) s = .next { s with
        active := some (.sbUnpack
          ⟨c.input, c.i + len.toNat, c.out ++ (c.input.drop c.i).take len.toNat⟩) }) ∧
    (c.input.length < c.i + len.toNat →
      exec (.sbLength len) s = .next (s.ended .sbUnpack .corruptBitstream .nothing)) ∧
    (c.i + len.toNat ≤ c.input.length → s.params.outCapacity < c.out.length + len.toNat →
      exec (.sbLength len) s = .next (s.ended .sbUnpack .allocationFailure .nothing)) ∧
    exec .sbTerminator s = .next (s.ended .sbUnpack .ok (.bytes c.out))) ∧
  ∀ (s : State) (c : CvDec) (value : List Byte) (k : Byte), s.active = some (.cvDec c) →
    value.length = s.params.sampleBytes →
    (c.produced + (k.toNat + 1) ≤ c.total →
      exec (.cvPacket value k) s = .next { s with
        active := some (.cvDec { c with
          runs := c.runs ++ [⟨value, k.toNat + 1⟩], produced := c.produced + (k.toNat + 1) }) }) ∧
    (c.total < c.produced + (k.toNat + 1) →
      exec (.cvPacket value k) s = .next (s.ended .cvDec .pixelCountMismatch .nothing))

/-! ## Byte-run coders -/

/-- R222, R223, R225, R228: `PB_ENC` emits literals of 1 to 127 bytes and repeats of 3 to 128 copies, with headers 0x00 to 0x7E
and 0x81 to 0xFE; no three equal bytes begin inside a literal; a literal ends at three equal bytes, at 127 or at the end; a
repeat ends at another byte, at 128 or at the end; they take at most twice the bytes of the input; `PB_ENC` is
AllocationFailure exactly where they do not fit in `OUT_CAPACITY` (R62); and `PB_DEC` of them returns the input. -/
def Obligations.PbEncEmitsGreedyPackets : Prop :=
  ∀ (s : State) (input : List Byte), s.ready = true →
    ∃ ps : List PbPacket, pbData ps = input ∧ (pbBytes ps).length ≤ 2 * input.length ∧
      ((pbBytes ps).length ≤ s.params.outCapacity →
        exec (.pbEnc input) s = .next (s.answered .pbEnc .ok (.bytes (pbBytes ps)))) ∧
      (s.params.outCapacity < (pbBytes ps).length →
        exec (.pbEnc input) s = .next (s.answered .pbEnc .allocationFailure .nothing)) ∧
      (∀ p ∈ ps, p.emitted = true ∧
        ∃ h, p.bytes.head? = some h ∧ (h.toNat ≤ 0x7E ∨ 0x81 ≤ h.toNat ∧ h.toNat ≤ 0xFE)) ∧
      (∀ pre bs post, ps = pre ++ .literal bs :: post →
        (∀ j < bs.length, ∀ x, ¬ [x, x, x] <+: (bs ++ pbData post).drop j) ∧
        (bs.length = 127 ∨ post = [] ∨ ∃ x, [x, x, x] <+: pbData post)) ∧
      (∀ pre n b post, ps = pre ++ .rep n b :: post → n = 128 ∨ (pbData post).head? ≠ some b) ∧
      ∀ u : State, u.ready = true → input.length ≤ u.params.outCapacity →
        exec (.pbDec (pbBytes ps) input.length) u = .next (u.answered .pbDec .ok (.bytes input))

/-- R226, R227, R89: `PB_DEC` of legal packets (literals of 1 to 128 bytes, repeats of 2 to 128 copies) with their total returns
their data, whatever follows; a larger total is PixelCountMismatch at the end of the input and CorruptBitstream at a header
0x80; a total that a packet crosses is PixelCountMismatch. -/
def Obligations.PbDecExpandsLegalPackets : Prop :=
  ∀ (s : State) (ps : List PbPacket), s.ready = true → (∀ p ∈ ps, p.legal = true) →
    (pbData ps).length ≤ s.params.outCapacity →
    (∀ rest, exec (.pbDec (pbBytes ps ++ rest) (pbData ps).length) s = .next (s.answered .pbDec .ok (.bytes (pbData ps)))) ∧
    ∀ total, (pbData ps).length < total →
      exec (.pbDec (pbBytes ps) total) s = .next (s.answered .pbDec .pixelCountMismatch .nothing) ∧
      (∀ rest, exec (.pbDec (pbBytes ps ++ 0x80 :: rest) total) s = .next (s.answered .pbDec .corruptBitstream .nothing)) ∧
      ∀ (p : PbPacket) (rest : List Byte), p.legal = true → total < (pbData ps).length + p.data.length →
        exec (.pbDec (pbBytes ps ++ p.bytes ++ rest) total) s = .next (s.answered .pbDec .pixelCountMismatch .nothing)

/-- R226, R227: the headers of the PackBits decoder: a literal header copies `n + 1` bytes; a repeat header `0x80 + h` copies
the next byte `129 - h` times; too few bytes left and a chunk past `total` are PixelCountMismatch; 0x80 is CorruptBitstream. -/
def Obligations.PackBitsHeaderTokens : Prop :=
  ∀ (s : State) (c : PbDec), s.active = some (.pbDec c) → c.wf s.params = true →
    exec .pbIllegal80 s = .next (s.ended .pbDec .corruptBitstream .nothing) ∧
    ∀ (i : Instr) (chunk : List Byte) (used : Nat),
      ((∃ n : BitVec 7, i = .pbLiteral n ∧ chunk = (c.input.drop c.i).take (n.toNat + 1) ∧ used = n.toNat + 1) ∨
        ∃ (h : BitVec 7) (b : Byte), h ≠ 0 ∧ i = .pbRepeat h ∧
          chunk = List.replicate (129 - h.toNat) b ∧ used = 1 ∧ (c.i < c.input.length → c.input[c.i]? = some b)) →
      (c.i + used ≤ c.input.length → c.produced + chunk.length ≤ c.total →
        c.out.length + chunk.length ≤ s.params.outCapacity →
        exec i s = .next { s with
          active := some (.pbDec ⟨c.input, c.i + used, c.total, c.produced + chunk.length, c.out ++ chunk⟩) }) ∧
      (c.input.length < c.i + used ∨ c.total < c.produced + chunk.length →
        exec i s = .next (s.ended .pbDec .pixelCountMismatch .nothing)) ∧
      (c.i + used ≤ c.input.length → c.produced + chunk.length ≤ c.total →
        s.params.outCapacity < c.out.length + chunk.length →
        exec i s = .next (s.ended .pbDec .allocationFailure .nothing))

/-- R231, R232, R233, R236: `CV_ENC` codes each run on its own as packets of 255 samples and one of the rest; counts that do not
sum to `total` are PixelCountMismatch, a sample of the wrong length or a count outside 1 to 65536 is refused; and `CV_DEC` of
the output with `total` returns runs with the same expansion. -/
def Obligations.CvEncSplitsEachRun : Prop :=
  ∀ (s : State) (runs : List CvRun) (total : Nat), s.ready = true →
    ((∃ r ∈ runs, r.sample.length ≠ s.params.sampleBytes ∨ r.count = 0 ∨ 65536 < r.count) →
      exec (.cvEnc runs total) s = .next (s.answered .cvEnc .invalidOperand .nothing)) ∧
    ((∀ r ∈ runs, r.sample.length = s.params.sampleBytes ∧ 1 ≤ r.count ∧ r.count ≤ 65536) →
      ((runs.map CvRun.count).sum ≠ total →
        exec (.cvEnc runs total) s = .next (s.answered .cvEnc .pixelCountMismatch .nothing)) ∧
      ((runs.map CvRun.count).sum = total →
        ((cvBytes (runs.flatMap cvSplit)).length ≤ s.params.outCapacity →
          exec (.cvEnc runs total) s = .next (s.answered .cvEnc .ok (.bytes (cvBytes (runs.flatMap cvSplit)))) ∧
          ∀ u : State, u.ready = true → u.params.sampleBytes = s.params.sampleBytes →
            ∃ rs, exec (.cvDec (cvBytes (runs.flatMap cvSplit)) total) u = .next (u.answered .cvDec .ok (.runs rs)) ∧
              (rs.flatMap fun r => List.replicate r.count r.sample) =
                runs.flatMap fun r => List.replicate r.count r.sample) ∧
        (s.params.outCapacity < (cvBytes (runs.flatMap cvSplit)).length →
          exec (.cvEnc runs total) s = .next (s.answered .cvEnc .allocationFailure .nothing))))

/-- R235, R90: `CV_DEC` of packets with counts 1 to 256 and their total returns one run for each, whatever follows; a larger
total with no whole packet left is PixelCountMismatch, and so is a total that a packet crosses. -/
def Obligations.CvDecReturnsOneRunPerPacket : Prop :=
  ∀ (s : State) (packets : List CvRun), s.ready = true →
    (∀ r ∈ packets, r.sample.length = s.params.sampleBytes ∧ 1 ≤ r.count ∧ r.count ≤ 256) →
    (∀ rest, exec (.cvDec (cvBytes packets ++ rest) (packets.map CvRun.count).sum) s =
      .next (s.answered .cvDec .ok (.runs packets))) ∧
    ∀ total, (packets.map CvRun.count).sum < total →
      (∀ part : List Byte, part.length ≤ s.params.sampleBytes →
        exec (.cvDec (cvBytes packets ++ part) total) s = .next (s.answered .cvDec .pixelCountMismatch .nothing)) ∧
      ∀ (r : CvRun) (rest : List Byte), r.sample.length = s.params.sampleBytes → 1 ≤ r.count → r.count ≤ 256 →
        total < (packets.map CvRun.count).sum + r.count →
        exec (.cvDec (cvBytes packets ++ cvBytes [r] ++ rest) total) s = .next (s.answered .cvDec .pixelCountMismatch .nothing)

/-! ## Ascii85 -/

/-- R250, R251, R252, R253, R255: `A85_ENC_BYTE` keeps the first three bytes of a tuple and on the fourth writes `z` or five
digits with a line break before the 73rd character of a line; it opens a session where none is open. -/
def Obligations.A85EncByteWritesFullTuples : Prop :=
  ∀ (s : State) (c : A85Enc) (b : Byte), s.ready = true →
    (s.a85Enc = some c ∨ s.a85Enc = none ∧ c = ⟨#v[0, 0, 0, 0], 0, 0, []⟩) → c.wf s.params = true →
    (c.pendingCount < 3 →
      exec (.a85EncByte b) s = .next { s.answered .a85Enc .ok .nothing with
        a85Enc := some ⟨c.pending.setIfInBounds c.pendingCount b, c.pendingCount + 1, c.lineCol, c.out⟩ }) ∧
    (c.pendingCount = 3 →
      ∀ chars, chars = a85Chars [c.pending[0], c.pending[1], c.pending[2], b] →
        ((c.out ++ wrapped c.lineCol chars).length ≤ s.params.outCapacity →
          exec (.a85EncByte b) s = .next { s.answered .a85Enc .ok .nothing with
            a85Enc := some ⟨#v[0, 0, 0, 0], 0, wrappedCol c.lineCol chars, c.out ++ wrapped c.lineCol chars⟩ }) ∧
        (s.params.outCapacity < (c.out ++ wrapped c.lineCol chars).length →
          exec (.a85EncByte b) s = .next { s.answered .a85Enc .allocationFailure .nothing with a85Enc := none }))

/-- R254, R255, R256: `A85_ENC_END` writes one character more than bytes are pending, never `z`, then `~>` without a line break
before it, returns the output and closes the session. -/
def Obligations.A85EncEndWritesThePartialTuple : Prop :=
  ∀ (s : State) (c : A85Enc), s.ready = true →
    (s.a85Enc = some c ∨ s.a85Enc = none ∧ c = ⟨#v[0, 0, 0, 0], 0, 0, []⟩) → c.wf s.params = true →
    ∀ out, out = c.out ++ wrapped c.lineCol (a85Chars (c.pending.toList.take c.pendingCount)) ++ [0x7E, 0x3E] →
      (out.length ≤ s.params.outCapacity →
        exec .a85EncEnd s = .next { s.answered .a85Enc .ok (.bytes out) with a85Enc := none }) ∧
      (s.params.outCapacity < out.length →
        exec .a85EncEnd s = .next { s.answered .a85Enc .allocationFailure .nothing with a85Enc := none })

/-- R251 to R256: the stream of a whole session is the characters of its tuples, broken into lines, and `~>`; every line but the
last has exactly 72 characters and the last at most 74. -/
def Obligations.A85StreamIsTheWrappedTuples : Prop :=
  ∀ (s : State) (bytes : List Byte), s.quiet = true → s.a85Enc = none →
    (a85Stream bytes).length ≤ s.params.outCapacity →
    (∃ t, execAll (a85Enc bytes) s = .next t ∧ t.status.a85Enc = some .ok ∧ t.result = .bytes (a85Stream bytes) ∧
      t.a85Enc = none) ∧
    (∀ line ∈ ((a85Stream bytes).splitOn 0x0A).dropLast, line.length = 72) ∧
    ∀ line ∈ ((a85Stream bytes).splitOn 0x0A).getLast?, line.length ≤ 74

/-- R263: for every byte stream, encoding it in a session and decoding the output returns it; a full tuple of four zero bytes
is the one character `z`, and one to three zero bytes as the last partial tuple are that many `!` and one more, never `z`. -/
def Obligations.A85RoundTrip : Prop :=
  ∀ (s : State) (bytes : List Byte), s.quiet = true → s.a85Enc = none →
    (a85Stream bytes).length ≤ s.params.outCapacity →
    ∃ t out, execAll (a85Enc bytes) s = .next t ∧ t.status.a85Enc = some .ok ∧ t.result = .bytes out ∧
      out = wrapped 0 (a85Chars bytes) ++ [0x7E, 0x3E] ∧
      (∀ pre post, pre.length % 4 = 0 → bytes = pre ++ [0, 0, 0, 0] ++ post →
        a85Chars bytes = a85Chars pre ++ [0x7A] ++ a85Chars post) ∧
      (∀ pre k, pre.length % 4 = 0 → 1 ≤ k → k ≤ 3 → bytes = pre ++ List.replicate k 0 →
        a85Chars bytes = a85Chars pre ++ List.replicate (k + 1) 0x21) ∧
      ∀ u : State, u.ready = true → bytes.length ≤ u.params.outCapacity →
        exec (.a85Dec out) u = .next (u.answered .a85Dec .ok (.bytes bytes))

/-- R253, R91: `Digits` of a word gives five digits of 0 to 84, the first at most 82, whose value in base 85 is the word; each
character is in `!` to `u`. -/
def Obligations.DigitsAreBase85 : Prop :=
  ∀ w : Nat, w < 2 ^ 32 →
    digits85 w = [w / 85 ^ 4, w % 85 ^ 4 / 85 ^ 3, w % 85 ^ 4 % 85 ^ 3 / 85 ^ 2, w % 85 ^ 4 % 85 ^ 3 % 85 ^ 2 / 85,
      w % 85 ^ 4 % 85 ^ 3 % 85 ^ 2 % 85] ∧
    value85 (digits85 w) = w ∧ (∀ d ∈ digits85 w, d ≤ 84) ∧ w / 85 ^ 4 ≤ 82 ∧
    ∀ ch ∈ (digits85 w).map char85, 0x21 ≤ ch.toNat ∧ ch.toNat ≤ 0x75

/-- R258 to R262: the characters of the Ascii85 decoder: white space changes nothing; an illegal character, `z` inside a tuple, a
tuple or padded tuple above `2^32 - 1` and a last tuple of one digit are CorruptBitstream; the fifth digit writes the four
bytes of the tuple, `z` four zero bytes; `~>` writes the bytes of a short tuple padded with 84 and returns the output; bytes
that do not fit in `OUT_CAPACITY` are AllocationFailure (R62). -/
def Obligations.Ascii85CharacterTokens : Prop :=
  ∀ (s : State) (c : A85Dec), s.active = some (.a85Dec c) → c.wf s.params = true →
    (exec .a85Linebreak s = .next s ∧
      ∀ b, exec (.a85Whitespace b) s = .next s ∧
        exec (.a85Illegal b) s = .next (s.ended .a85Dec .corruptBitstream .nothing)) ∧
    (∀ d ≤ 84, c.group.length < 4 →
      exec (.a85Digit d) s = .next { s with active := some (.a85Dec { c with group := c.group ++ [d] }) }) ∧
    (∀ d ≤ 84, c.group.length = 4 → 2 ^ 32 ≤ value85 (c.group ++ [d]) →
      exec (.a85Digit d) s = .next (s.ended .a85Dec .corruptBitstream .nothing)) ∧
    (∀ d ≤ 84, ∀ bytes : List Byte, c.group.length = 4 → bytes.length = 4 → beValue bytes = value85 (c.group ++ [d]) →
      c.out.length + 4 ≤ s.params.outCapacity →
      exec (.a85Digit d) s = .next { s with active := some (.a85Dec { c with group := [], out := c.out ++ bytes }) }) ∧
    (c.group ≠ [] →
      exec .a85Zero s = .next (s.ended .a85Dec .corruptBitstream .nothing)) ∧
    (c.group = [] → c.out.length + 4 ≤ s.params.outCapacity →
      exec .a85Zero s = .next { s with active := some (.a85Dec { c with out := c.out ++ [0, 0, 0, 0] }) }) ∧
    (c.group = [] → exec .a85End s = .next (s.ended .a85Dec .ok (.bytes c.out))) ∧
    (c.group.length = 1 ∨
        2 ≤ c.group.length ∧ 2 ^ 32 ≤ value85 (c.group ++ List.replicate (5 - c.group.length) 84) →
      exec .a85End s = .next (s.ended .a85Dec .corruptBitstream .nothing)) ∧
    (∀ bytes : List Byte, 2 ≤ c.group.length → bytes.length = 4 →
      beValue bytes = value85 (c.group ++ List.replicate (5 - c.group.length) 84) →
      c.out.length + (c.group.length - 1) ≤ s.params.outCapacity →
      exec .a85End s = .next (s.ended .a85Dec .ok (.bytes (c.out ++ bytes.take (c.group.length - 1))))) ∧
    (∀ d ≤ 84, c.group.length = 4 → value85 (c.group ++ [d]) < 2 ^ 32 → s.params.outCapacity < c.out.length + 4 →
      exec (.a85Digit d) s = .next (s.ended .a85Dec .allocationFailure .nothing)) ∧
    (c.group = [] → s.params.outCapacity < c.out.length + 4 →
      exec .a85Zero s = .next (s.ended .a85Dec .allocationFailure .nothing)) ∧
    (2 ≤ c.group.length → value85 (c.group ++ List.replicate (5 - c.group.length) 84) < 2 ^ 32 →
      s.params.outCapacity < c.out.length + (c.group.length - 1) →
      exec .a85End s = .next (s.ended .a85Dec .allocationFailure .nothing))

/-! ## The whole block -/

/-- R64, R197, R261: bytes after the point where an LZW, sub-block, PackBits, count/value or Ascii85 decode ends are not read:
appending bytes to the input of a decode that ended with OK changes nothing. -/
def Obligations.BytesAfterTheEndAreNotRead : Prop :=
  ∀ (s t : State) (input extra : List Byte) (n : Nat),
    (t.status.lzwDec = some .ok → exec (.lzwDec input n) s = .next t → exec (.lzwDec (input ++ extra) n) s = .next t) ∧
    (t.status.sbUnpack = some .ok → exec (.sbUnpack input) s = .next t → exec (.sbUnpack (input ++ extra)) s = .next t) ∧
    (t.status.pbDec = some .ok → exec (.pbDec input n) s = .next t → exec (.pbDec (input ++ extra) n) s = .next t) ∧
    (t.status.cvDec = some .ok → exec (.cvDec input n) s = .next t → exec (.cvDec (input ++ extra) n) s = .next t) ∧
    (t.status.a85Dec = some .ok → exec (.a85Dec input) s = .next t → exec (.a85Dec (input ++ extra)) s = .next t)

/-- R55, R70: between operations a step takes the host's next command and runs the instruction its bytes and operands decode
to; a command whose operand values make no instruction is refused with InvalidOperand (R72; for values of the wrong kinds the
model's, log 1) unless its draw fails, which ends it with AllocationFailure (R282, R288; the model's, log 6 and 21; the status
register of a run-model command is the model's, log 8); a block with no command stays as it is (the model's, log 2). -/
def Obligations.StepRunsTheNextCommand : Prop :=
  ∀ s : State, s.active = none →
    (s.queue = [] → step s = .next s) ∧
    ∀ c q, s.queue = c :: q →
      (∀ i, decode (.command c.opcode c.operands) = .ok i → step s = exec i { s with queue := q }) ∧
      ∀ e u, decode (.command c.opcode c.operands) = .error e → u = sessionOfOpcode c.opcode →
        (s.allocFails = false → step s = .next { s.answered u .invalidOperand .nothing with queue := q }) ∧
        (s.allocFails = true → step s = .next { (s.close u).answered u .allocationFailure .nothing with queue := q })

/-- R143, R190, R201, R226, R235, R258 (that a step from inside a decoder runs one token is the model's, log 3): it reads the
next token from the stream, moves past it and runs the instruction it decodes to: a code word of the current colour's set, an
LZW code of the current width, a length byte, a header, a packet, a character. A full row at a padding tail ends its scanline
without a code word (R149). Where no token can be read the operation ends: with CorruptBitstream at bits that begin with no
code word of the set, the input ending inside one or 13 bits with no hit (R143, R145), where fewer bits remain than an LZW
code has (R196), and where the input ends before a length byte (R201) or before `~>` (R261); with PixelCountMismatch where it
ends before the declared total (R226, R235). At the declared total the PackBits and count/value decoders return their output.
-/
def Obligations.StepRunsTheNextToken : Prop :=
  (∀ (s : State) (d : HufDec) (mode : HufMode) (first : Bool), s.active = some (.hufDec mode (.code first)) →
    s.hufDec = some d → d.br.order = .msb → d.row.length = d.columns → padding d.br.bits →
    (mode = .line → step s = .next (s.ended .hufDec .ok (.row d.row))) ∧
    ∀ rows, mode = .page rows →
      step s = .next { s with hufDec := some (d.withRow d.row), active := some (.hufDec (.page rows) .head) }) ∧
  (∀ s : State,
    (∀ d mode first, s.active = some (.hufDec mode (.code first)) → s.hufDec = some d → d.br.order = .msb →
      ¬ (d.row.length = d.columns ∧ padding d.br.bits) → (∀ e ∈ codeSet d.color, ¬ e.bits <+: d.br.bits) →
      step s = .next { s.ended .hufDec .corruptBitstream .nothing with hufDec := none }) ∧
    (∀ c, s.active = some (.lzwDec c) → c.br.order = .lsb → c.br.bits.length < c.width →
      step s = .next (s.ended .lzwDec .corruptBitstream .nothing)) ∧
    (∀ c, s.active = some (.sbUnpack c) → c.input.length ≤ c.i →
      step s = .next (s.ended .sbUnpack .corruptBitstream .nothing)) ∧
    (∀ c, s.active = some (.pbDec c) →
      (c.produced < c.total → c.input.length ≤ c.i → step s = .next (s.ended .pbDec .pixelCountMismatch .nothing)) ∧
      (c.total ≤ c.produced → step s = .next (s.ended .pbDec .ok (.bytes c.out)))) ∧
    (∀ c, s.active = some (.cvDec c) →
      (c.produced < c.total → c.input.length ≤ c.i + s.params.sampleBytes →
        step s = .next (s.ended .cvDec .pixelCountMismatch .nothing)) ∧
      (c.total ≤ c.produced → step s = .next (s.ended .cvDec .ok (.runs c.runs)))) ∧
    ∀ c, s.active = some (.a85Dec c) → c.input.length ≤ c.i →
      step s = .next (s.ended .a85Dec .corruptBitstream .nothing)) ∧
  ∀ (s : State) (i : Instr),
    (∀ d mode first, s.active = some (.hufDec mode (.code first)) → s.hufDec = some d → d.br.order = .msb →
      ¬ (d.row.length = d.columns ∧ padding d.br.bits) →
      decode (.huf d.color d.br.bits) = .ok i →
      ∃ e, codeEntry i = some e ∧ step s = exec i { s with
        hufDec := some { d with
          br := { d.br with bitpos := d.br.bitpos + e.bitLength }, sbCode := e.code, sbLen := e.bitLength } }) ∧
    (∀ c, s.active = some (.lzwDec c) → c.br.order = .lsb → c.width ≤ c.br.bits.length →
      decode (.lzw c.prev.isSome c.next (lsbValue (c.br.bits.take c.width))) = .ok i →
      step s = exec i { s with
        active := some (.lzwDec { c with br := { c.br with bitpos := c.br.bitpos + c.width } }) }) ∧
    (∀ c b, s.active = some (.sbUnpack c) → c.input[c.i]? = some b → decode (.subBlock b) = .ok i →
      step s = exec i { s with active := some (.sbUnpack { c with i := c.i + 1 }) }) ∧
    (∀ c h, s.active = some (.pbDec c) → c.produced < c.total → c.input[c.i]? = some h → decode (.packBits h) = .ok i →
      step s = exec i { s with active := some (.pbDec { c with i := c.i + 1 }) }) ∧
    (∀ c, s.active = some (.cvDec c) → c.produced < c.total →
      decode (.countValue s.params.sampleBytes (c.input.drop c.i)) = .ok i →
      step s = exec i { s with active := some (.cvDec { c with i := c.i + (s.params.sampleBytes + 1) }) }) ∧
    (∀ c ch, s.active = some (.a85Dec c) → c.input[c.i]? = some ch → decode (.ascii85 ch c.input[c.i + 1]?) = .ok i →
      step s = exec i { s with active := some (.a85Dec { c with i := c.i + 1 }) })

/-- R71, R72, R80 to R92: words written out from the spec's tables decode to the instructions they stand for. -/
def Obligations.WordsDecodeToTheirInstructions : Prop :=
  decode (.command 0x01 [.sample (.index 7), .num 256]) = .ok (.rmSet (.index 7) 256) ∧
  decode (.command 0x11 [.num 0x35, .num 8]) = .ok (.bwWrite 0x35 8) ∧
  decode (.command 0x25 []) = .ok .hufDecLine ∧
  decode (.command 0x42 [.runs [⟨[5], 3⟩], .num 3]) = .ok (.cvEnc [⟨[5], 3⟩] 3) ∧
  decode (.command 0x23 []) = .ok (.reservedOpcode 0x23) ∧
  decode (.huf .white [false, false, false, true, true, true]) = .ok .wTerm1 ∧
  decode (.huf .black [false, true, false]) = .ok .bTerm1 ∧
  decode (.huf .white [true, true, false, true, true]) = .ok .wMakeup64 ∧
  decode (.huf .black [false, false, false, false, false, false, false, false, false, false, false, true]) = .ok .eol ∧
  decode (.lzw true 300 256) = .ok .lzwClear ∧ decode (.lzw true 300 299) = .ok (.lzwString 299) ∧
  decode (.subBlock 0x00) = .ok .sbTerminator ∧ decode (.packBits 0xFD) = .ok (.pbRepeat 0x7D) ∧
  decode (.countValue 1 [0x05, 0x02]) = .ok (.cvPacket [0x05] 0x02) ∧
  decode (.ascii85 0x7E (some 0x3E)) = .ok .a85End

/-- R71 to R92: the decoder reads the encoder's words of every well-formed instruction back, with every operand. -/
def Obligations.DecodeOfEncodeIsTheInstruction : Prop :=
  ∀ (p : Params) (i : Instr), WellFormed p i = true → decode (encode i) = .ok i

/-- R72: every byte that is no opcode of R71 decodes to a reserved opcode, and running one writes `status = InvalidOperand` and
nothing else (that it delivers no result and takes no draw is the model's, log 9 and 29, and so is which status register it
writes, log 8); an operation with an operand out of its range is refused with InvalidOperand, and a `value` above u16 or a
`b` above u8 makes no instruction. -/
def Obligations.ReservedOpcodesAndBadOperandsAreRefused : Prop :=
  (∀ (b : Byte) (args : List Operand),
    (∀ op : Opcode, op.byte ≠ b) ↔ decode (.command b args) = .ok (.reservedOpcode b)) ∧
  (∀ (s : State) (b : Byte), s.active = none →
    exec (.reservedOpcode b) s =
      .next { s with status := s.status.set .none (some .invalidOperand), result := .nothing }) ∧
  (∀ (s : State) (i : Instr), s.ready = true → isOperation i = true → WellFormed s.params i = false →
    exec i s = .next (s.answered (sessionOf i) .invalidOperand .nothing)) ∧
  ∀ v w : Nat, (65535 < v → decode (.command 0x11 [.num v, .num w]) = .error .operands) ∧
    (255 < v → decode (.command 0x50 [.num v]) = .error .operands)

/-- R281, R331, R280, R39, R71: every operation issued between operations ends, with OK or (`HUF_DEC_PAGE` only) OK_EARLY_END
and a result of its kind, a byte decoder's of its declared total, or with one error status and no result; it writes the status
of its session, which can then be read, and no other session's (that the run-model operations have a register of their own is
the model's, log 8); the codes are 0 and 1 for success, 2 to 5 for errors. -/
def Obligations.EveryOperationEndsWithOneStatus : Prop :=
  ∀ (s : State) (i : Instr), s.active = none → isOperation i = true →
    ∃ t st, exec i s = .next t ∧ t.active = none ∧ 
      t.status = s.status.set (sessionOf i) (some st) ∧ t.readStatus (sessionOf i) = some st.code ∧
      (st = .okEarlyEnd → ∃ rows, i = .hufDecPage rows) ∧ (st.isError = true → t.result = .nothing) ∧
      (st.isError = false → delivers i t.result = true) ∧
      (st.isError = true ↔ 2 ≤ st.code.toNat) ∧ st.code.toNat ≤ 5

/-- R285, R286, R289, R287: after an error the state is the state before but for the status, and (for every kind but
InvalidOperand, and but for a `BR_READ` past the end, R107) the closed session; no result is delivered. The draw that is used
up is the model's (log 6), and so is the status register of the run-model operations (log 8). -/
def Obligations.ErrorsArePrecise : Prop :=
  ∀ (s t : State) (i : Instr) (st : Status), s.active = none → isOperation i = true → exec i s = .next t →
    t.status.get (sessionOf i) = some st → st.isError = true →
    t = (if closesSession i st = true then s.close (sessionOf i) else s).answered (sessionOf i) st .nothing

/-- R282, R288, R285: where the environment draws an allocation failure, every operation ends with AllocationFailure whatever
its operands and the state, and its session closes. R288 says that it may pre-empt the operand and session checks; that a
failing draw always does, the form of the draws, and the status register of the run-model operations are the model's (log 21,
6 and 8). -/
def Obligations.ADrawnAllocationFailureEndsAnyOperation : Prop :=
  ∀ (s : State) (i : Instr), s.active = none → s.allocFails = true → isOperation i = true →
    exec i s = .next ((s.close (sessionOf i)).answered (sessionOf i) .allocationFailure .nothing)

/-- R320 and the model's refusals (log 4, 5): a command while an operation is in progress is refused; a token between
operations is refused, and so is a code word of the other colour's tables (R147). -/
def Obligations.RefusedSchedules : Prop :=
  (∀ (s : State) (i : Instr) (a : Active), (encodeCommand i).isSome = true → s.active = some a →
    exec i s = .refused .contextBusy) ∧
  (∀ (s : State) (i : Instr), encodeCommand i = none → s.active = none → exec i s = .refused .tokenOutsideDecoder) ∧
  ∀ (s : State) (i : Instr) (e : Entry) (d : HufDec) (mode : HufMode) (first : Bool), codeEntry i = some e →
    s.active = some (.hufDec mode (.code first)) → s.hufDec = some d →
    ((d.color = .white ∧ (e.cls = .terminatingBlack ∨ e.cls = .makeupBlack)) ∨
      (d.color = .black ∧ (e.cls = .terminatingWhite ∨ e.cls = .makeupWhite))) →
    exec i s = .refused .tokenNotReadable

/-- The frame of every instruction (R6, R20, R39, R41, R56, R115, R285): the parameters and the queue never change; the
run-model register changes only by `RM_SET`; a session and its status change only by an instruction of its unit (what a unit
is is the model's, log 31; the operations of no session have a status of their own, the model's, log 8); an operation uses up
one draw, a token or a reserved opcode none (the model's, log 6 and 29); and an instruction that leaves its operation in
progress writes no status and no result (R55). -/
def Obligations.EachInstructionWritesOnlyItsOwnState : Prop :=
  ∀ (s t : State) (i : Instr), exec i s = .next t →
    t.params = s.params ∧ t.queue = s.queue ∧ ((∀ p n, i ≠ .rmSet p n) → t.rm = s.rm) ∧
    (sessionOf i ≠ .bitWriter → t.bw = s.bw) ∧ (sessionOf i ≠ .bitReader → t.br = s.br) ∧
    (sessionOf i ≠ .hufEnc → t.hufEnc = s.hufEnc) ∧ (sessionOf i ≠ .hufDec → t.hufDec = s.hufDec) ∧
    (sessionOf i ≠ .a85Enc → t.a85Enc = s.a85Enc) ∧ (∀ u, u ≠ sessionOf i → t.status.get u = s.status.get u) ∧
    t.allocDraws = (if isOperation i = true then s.allocDraws.tail else s.allocDraws) ∧
    (t.active ≠ none → t.status = s.status ∧ t.result = s.result)

/-- R27, R51, R61, R63: a reader's input is never written and its position never goes back, while its session lasts. -/
def Obligations.InputsAreReadForwardAndNeverWritten : Prop :=
  ∀ (s t : State), s.wf = true → step s = .next t →
    (∀ r r', s.br = some r → t.br = some r' → (∀ c q, s.queue = c :: q → s.active = none → c.opcode ≠ 0x13) →
      r'.input = r.input ∧ r'.order = r.order ∧ r.bitpos ≤ r'.bitpos ∧ r'.bitpos ≤ 8 * r.input.length) ∧
    ∀ d d', s.hufDec = some d → t.hufDec = some d' → (∀ c q, s.queue = c :: q → s.active = none → c.opcode ≠ 0x24) →
      d'.columns = d.columns ∧ d'.br.input = d.br.input ∧ d'.br.order = d.br.order ∧ d.br.bitpos ≤ d'.br.bitpos ∧
      d'.br.bitpos ≤ 8 * d.br.input.length

/-- R62: no byte stream an instruction delivers is longer than `OUT_CAPACITY`. -/
def Obligations.OutputsStayWithinCapacity : Prop :=
  ∀ (s t : State) (i : Instr) (out : List Byte), s.wf = true → exec i s = .next t → t.result = .bytes out →
    out.length ≤ s.params.outCapacity ∨ t.result = s.result

/-- R55, R34, U24: an operation with a loop is its turns: run as one operation it leaves the same state as steps, one token or
one turn each, from the context it opens. That a step inside an operation is one turn is the model's (log 3). -/
def Obligations.AnOperationIsItsTurns : Prop :=
  ∀ (s : State) (i : Instr) (a : Active), s.ready = true → openedContext i s = some a →
    ∃ n t, exec i s = .next t ∧
      stepsToEnd n (s.entered a) = .next t

/-- R20 to R38: from every state whose registers are in the ranges the spec gives them, a step leaves them so. -/
def Obligations.StepKeepsRegistersInRange : Prop :=
  ∀ s t : State, s.wf = true → step s = .next t → t.wf = true

/-- R310, R45: the registers are in their ranges at reset. -/
def Obligations.ResetRegistersAreInRange : Prop := State.reset.wf = true

/-! ## The code stream of `LZW_ENC` -/

/-- R181 to R187: what `LZW_ENC` writes. The input falls into phrases, each the longest string at its place that the dictionary
then knows (R182); after each phrase but the last, the phrase with the byte after it is entered at the next code from 258 up
(R183), or, with the table full at 4096, `CLEAR_CODE` follows in 12 bits and the dictionary is empty again (R185); each code
has the width of R184; the stream is `CLEAR_CODE`, the codes of the phrases, `END_CODE` and fewer than 8 zero bits (R186,
R187). It is AllocationFailure exactly where it is longer than `OUT_CAPACITY` (R62). -/
def Obligations.LzwEncWritesTheLongestMatches : Prop :=
  ∀ (s : State) (input : List Byte), s.ready = true →
    ∃ phrases : List (List Byte), phrases.flatten = input ∧ lzwPhrases [] phrases ∧
      (((lzwBits phrases).length + 7) / 8 ≤ s.params.outCapacity →
        ∃ out, exec (.lzwEnc input) s = .next (s.answered .lzwEnc .ok (.bytes out)) ∧ packs .lsb (lzwBits phrases) out) ∧
      (s.params.outCapacity < ((lzwBits phrases).length + 7) / 8 →
        exec (.lzwEnc input) s = .next (s.answered .lzwEnc .allocationFailure .nothing))
end

