-- ==== Sys2Proof/Laws/State.lean ====
section
/-! SUPPORT. One lemma per field for each update of the state that the shared operations make, so that no proof unfolds a
record update. -/

namespace Sys2Proof.Machine

/-! ## The status registers -/

section

variable (r : Statuses) (u v : Session) (x y : Option Status)

@[simp] theorem Statuses.get_set_self : (r.set u x).get u = x := by cases u <;> rfl

theorem Statuses.get_set : (r.set u x).get v = if v = u then x else r.get v := by
  cases u <;> cases v <;> rfl

/-- R39, R56: writing the status of one session leaves every other session's as it is. -/
@[simp] theorem Statuses.get_set_of_ne (h : v ≠ u) : (r.set u x).get v = r.get v := by simp [Statuses.get_set, h]

@[simp] theorem Statuses.set_set : (r.set u x).set u y = r.set u y := by cases u <;> rfl

theorem Statuses.set_comm (h : u ≠ v) : (r.set u x).set v y = (r.set v y).set u x := by
  cases u <;> cases v <;> first | rfl | exact absurd rfl h

@[simp] theorem Statuses.set_get : r.set u (r.get u) = r := by cases u <;> rfl

@[simp] theorem Statuses.get_unwritten : Statuses.unwritten.get u = none := by cases u <;> rfl

@[ext] theorem Statuses.ext_get {r r' : Statuses} (h : ∀ u, r.get u = r'.get u) : r = r' := by
  cases r; cases r'
  simp only [Statuses.mk.injEq]
  exact ⟨h .none, h .bitWriter, h .bitReader, h .hufEnc, h .hufDec, h .a85Enc, h .lzwEnc, h .lzwDec, h .sbPack,
    h .sbUnpack, h .pbEnc, h .pbDec, h .cvEnc, h .cvDec, h .a85Dec⟩

end

variable (s : State)

/-- R42: the status of the session of the operation in progress cannot be read. -/
theorem State.readStatus_active {a : Active} (h : s.active = some a) : s.readStatus a.session = none := by
  simp [State.readStatus, h]

/-- R39: between operations the status of a session is what was written last, none while it is unwritten. -/
theorem State.readStatus_idle (h : s.active = none) (u : Session) :
    s.readStatus u = (s.status.get u).map Status.code := by
  simp [State.readStatus, h]

/-! ## `openSession` -/

section

variable (u : Session)

@[simp] theorem State.openSession_params : (s.openSession u).params = s.params := rfl
@[simp] theorem State.openSession_rm : (s.openSession u).rm = s.rm := rfl
@[simp] theorem State.openSession_status : (s.openSession u).status = s.status.set u none := rfl
@[simp] theorem State.openSession_result : (s.openSession u).result = s.result := rfl
@[simp] theorem State.openSession_bw : (s.openSession u).bw = s.bw := rfl
@[simp] theorem State.openSession_br : (s.openSession u).br = s.br := rfl
@[simp] theorem State.openSession_hufEnc : (s.openSession u).hufEnc = s.hufEnc := rfl
@[simp] theorem State.openSession_hufDec : (s.openSession u).hufDec = s.hufDec := rfl
@[simp] theorem State.openSession_a85Enc : (s.openSession u).a85Enc = s.a85Enc := rfl
@[simp] theorem State.openSession_active : (s.openSession u).active = s.active := rfl
@[simp] theorem State.openSession_queue : (s.openSession u).queue = s.queue := rfl
@[simp] theorem State.openSession_allocDraws : (s.openSession u).allocDraws = s.allocDraws := rfl

/-- An operation that opens a session ends in the state in which it would end without the opening's write, since its end
writes the status. -/
@[simp] theorem State.openSession_finish (st : Status) (r : Result) :
    (s.openSession u).finish u st r = s.finish u st r := by
  simp [State.finish, State.openSession]

end

/-! ## `popDraw` -/

@[simp] theorem State.popDraw_params : s.popDraw.params = s.params := rfl
@[simp] theorem State.popDraw_rm : s.popDraw.rm = s.rm := rfl
@[simp] theorem State.popDraw_status : s.popDraw.status = s.status := rfl
@[simp] theorem State.popDraw_result : s.popDraw.result = s.result := rfl
@[simp] theorem State.popDraw_bw : s.popDraw.bw = s.bw := rfl
@[simp] theorem State.popDraw_br : s.popDraw.br = s.br := rfl
@[simp] theorem State.popDraw_hufEnc : s.popDraw.hufEnc = s.hufEnc := rfl
@[simp] theorem State.popDraw_hufDec : s.popDraw.hufDec = s.hufDec := rfl
@[simp] theorem State.popDraw_a85Enc : s.popDraw.a85Enc = s.a85Enc := rfl
@[simp] theorem State.popDraw_active : s.popDraw.active = s.active := rfl
@[simp] theorem State.popDraw_queue : s.popDraw.queue = s.queue := rfl
@[simp] theorem State.popDraw_allocDraws : s.popDraw.allocDraws = s.allocDraws.tail := rfl

/-! ## `finish` -/

variable (u : Session) (st : Status) (r : Result)

@[simp] theorem State.finish_params : (s.finish u st r).params = s.params := rfl
@[simp] theorem State.finish_rm : (s.finish u st r).rm = s.rm := rfl
@[simp] theorem State.finish_status : (s.finish u st r).status = s.status.set u (some st) := rfl
@[simp] theorem State.finish_result : (s.finish u st r).result = r := rfl
@[simp] theorem State.finish_bw : (s.finish u st r).bw = s.bw := rfl
@[simp] theorem State.finish_br : (s.finish u st r).br = s.br := rfl
@[simp] theorem State.finish_hufEnc : (s.finish u st r).hufEnc = s.hufEnc := rfl
@[simp] theorem State.finish_hufDec : (s.finish u st r).hufDec = s.hufDec := rfl
@[simp] theorem State.finish_a85Enc : (s.finish u st r).a85Enc = s.a85Enc := rfl
@[simp] theorem State.finish_active : (s.finish u st r).active = none := rfl
@[simp] theorem State.finish_queue : (s.finish u st r).queue = s.queue := rfl
@[simp] theorem State.finish_allocDraws : (s.finish u st r).allocDraws = s.allocDraws := rfl

/-! ## `close` -/

@[simp] theorem State.close_none : s.close .none = s := rfl
@[simp] theorem State.close_params (u : Session) : (s.close u).params = s.params := by cases u <;> rfl
@[simp] theorem State.close_rm (u : Session) : (s.close u).rm = s.rm := by cases u <;> rfl
@[simp] theorem State.close_status (u : Session) : (s.close u).status = s.status := by cases u <;> rfl
@[simp] theorem State.close_result (u : Session) : (s.close u).result = s.result := by cases u <;> rfl
theorem State.close_bw (u : Session) : (s.close u).bw = if u = .bitWriter then none else s.bw := by cases u <;> rfl
@[simp] theorem State.close_bitWriter_bw : (s.close .bitWriter).bw = none := rfl
@[simp] theorem State.close_bw_of_ne (u : Session) (h : u ≠ .bitWriter) : (s.close u).bw = s.bw := by simp [State.close_bw, h]
theorem State.close_br (u : Session) : (s.close u).br = if u = .bitReader then none else s.br := by cases u <;> rfl
@[simp] theorem State.close_bitReader_br : (s.close .bitReader).br = none := rfl
@[simp] theorem State.close_br_of_ne (u : Session) (h : u ≠ .bitReader) : (s.close u).br = s.br := by simp [State.close_br, h]
theorem State.close_hufEnc (u : Session) : (s.close u).hufEnc = if u = .hufEnc then none else s.hufEnc := by cases u <;> rfl
@[simp] theorem State.close_hufEnc_hufEnc : (s.close .hufEnc).hufEnc = none := rfl
@[simp] theorem State.close_hufEnc_of_ne (u : Session) (h : u ≠ .hufEnc) : (s.close u).hufEnc = s.hufEnc := by simp [State.close_hufEnc, h]
theorem State.close_hufDec (u : Session) : (s.close u).hufDec = if u = .hufDec then none else s.hufDec := by cases u <;> rfl
@[simp] theorem State.close_hufDec_hufDec : (s.close .hufDec).hufDec = none := rfl
@[simp] theorem State.close_hufDec_of_ne (u : Session) (h : u ≠ .hufDec) : (s.close u).hufDec = s.hufDec := by simp [State.close_hufDec, h]
theorem State.close_a85Enc (u : Session) : (s.close u).a85Enc = if u = .a85Enc then none else s.a85Enc := by cases u <;> rfl
@[simp] theorem State.close_a85Enc_a85Enc : (s.close .a85Enc).a85Enc = none := rfl
@[simp] theorem State.close_a85Enc_of_ne (u : Session) (h : u ≠ .a85Enc) : (s.close u).a85Enc = s.a85Enc := by simp [State.close_a85Enc, h]
@[simp] theorem State.close_active (u : Session) : (s.close u).active = s.active := by cases u <;> rfl
@[simp] theorem State.close_queue (u : Session) : (s.close u).queue = s.queue := by cases u <;> rfl
@[simp] theorem State.close_allocDraws (u : Session) : (s.close u).allocDraws = s.allocDraws := by cases u <;> rfl

/-! ## `raise` -/

variable (e : ErrorKind)

@[simp] theorem State.raise_status : (s.raise u e).status = s.status.set u (some e.status) := by
  cases u <;> cases e <;> rfl
@[simp] theorem State.raise_result : (s.raise u e).result = .nothing := rfl
@[simp] theorem State.raise_active : (s.raise u e).active = none := rfl
@[simp] theorem State.raise_params : (s.raise u e).params = s.params := by cases u <;> cases e <;> rfl
@[simp] theorem State.raise_rm : (s.raise u e).rm = s.rm := by cases u <;> cases e <;> rfl
theorem State.raise_bw : (s.raise u e).bw = if e ≠ .invalidOperand ∧ u = .bitWriter then none else s.bw := by
  cases u <;> cases e <;> rfl
theorem State.raise_br : (s.raise u e).br = if e ≠ .invalidOperand ∧ u = .bitReader then none else s.br := by
  cases u <;> cases e <;> rfl
theorem State.raise_hufEnc : (s.raise u e).hufEnc = if e ≠ .invalidOperand ∧ u = .hufEnc then none else s.hufEnc := by
  cases u <;> cases e <;> rfl
theorem State.raise_hufDec : (s.raise u e).hufDec = if e ≠ .invalidOperand ∧ u = .hufDec then none else s.hufDec := by
  cases u <;> cases e <;> rfl
theorem State.raise_a85Enc : (s.raise u e).a85Enc = if e ≠ .invalidOperand ∧ u = .a85Enc then none else s.a85Enc := by
  cases u <;> cases e <;> rfl
@[simp] theorem State.raise_queue : (s.raise u e).queue = s.queue := by cases u <;> cases e <;> rfl
@[simp] theorem State.raise_allocDraws : (s.raise u e).allocDraws = s.allocDraws := by cases u <;> cases e <;> rfl

/-- R287: InvalidOperand closes no session. -/
theorem State.raise_invalidOperand : s.raise u .invalidOperand = s.finish u .invalidOperand .nothing := rfl

/-- R285: every other error closes the session of the operation. -/
theorem State.raise_of_ne (h : e ≠ .invalidOperand) : s.raise u e = (s.close u).finish u e.status .nothing := by
  simp [State.raise, h]

@[simp] theorem State.openSession_raise : (s.openSession u).raise u e = s.raise u e := by
  cases e <;> cases u <;> simp [State.raise, State.close, State.openSession, State.finish]

/-! ## `ready` -/

theorem State.ready_iff : s.ready = true ↔ s.active = none ∧ s.allocFails = false := by
  simp [State.ready]

end Sys2Proof.Machine
end

