-- ==== Sys2Proof/Laws/Ops.lean ====
section
/-! SUPPORT. One lemma for each shared operation of Machine/Ops.lean that says everything it can do. -/

namespace Sys2Proof.Machine

/-! ## Output -/

/-- `Emit` appends one byte or raises AllocationFailure. -/
theorem emit_ok_iff {cap : Nat} {out out' : List Byte} {b : Byte} :
    emit cap out b = .ok out' ↔ out.length < cap ∧ out' = out ++ [b] := by
  unfold emit
  split <;> simp_all [eq_comm]

/-- The only error of `Emit` (R62). -/
theorem emit_error_iff {cap : Nat} {out : List Byte} {b : Byte} {e : ErrorKind} :
    emit cap out b = .error e ↔ cap ≤ out.length ∧ e = .allocationFailure := by
  unfold emit
  split
  · simp; omega
  · simp [eq_comm]; omega

/-- Bytes emitted one after the other: all of them where they fit, AllocationFailure otherwise. -/
theorem emitAll_eq (cap : Nat) (out bytes : List Byte) (h : out.length ≤ cap) :
    emitAll cap out bytes =
      if out.length + bytes.length ≤ cap then .ok (out ++ bytes) else .error .allocationFailure := by
  induction bytes generalizing out with
  | nil => simp [emitAll, h]
  | cons b bs ih =>
    by_cases hlt : out.length < cap
    · simp only [emitAll, emit, hlt, if_true]
      rw [ih (out ++ [b]) (by simp; omega)]
      simp [Nat.add_comm 1, Nat.add_assoc]
    · simp [emitAll, emit, hlt, show ¬ out.length + (bs.length + 1) ≤ cap by omega]

/-- What `emitAll` answers when it succeeds. -/
theorem emitAll_ok {cap : Nat} {out bytes out' : List Byte} (h : emitAll cap out bytes = .ok out') :
    out' = out ++ bytes ∧ (out.length ≤ cap → out'.length ≤ cap) := by
  induction bytes generalizing out with
  | nil => simp [emitAll] at h; subst h; simp
  | cons b bs ih =>
    simp only [emitAll] at h
    split at h
    · rename_i o ho
      obtain ⟨hlt, rfl⟩ := emit_ok_iff.1 ho
      obtain ⟨rfl, hl⟩ := ih h
      exact ⟨by simp, fun _ => hl (by simp; omega)⟩
    · cases h

/-- The only error of `emitAll` (R62). -/
theorem emitAll_error {cap : Nat} {out bytes : List Byte} {e : ErrorKind} (h : emitAll cap out bytes = .error e) :
    e = .allocationFailure := by
  induction bytes generalizing out with
  | nil => cases h
  | cons b bs ih =>
    simp only [emitAll] at h
    split at h
    · exact ih h
    · rename_i x hx
      cases h
      exact (emit_error_iff.1 hx).2

/-! ## Operations -/

/-- What an operation comes to: refused while another is in progress, ended by a drawn allocation failure, or its own
effect. -/
theorem operation_cases (u : Session) (s : State) (body : State → Answer) :
    (∃ a, s.active = some a ∧ operation u s body = .refused .contextBusy) ∨
    (s.active = none ∧ s.allocFails = true ∧ operation u s body = .next (s.popDraw.raise u .allocationFailure)) ∨
    (s.ready = true ∧ operation u s body = body s.popDraw) := by
  unfold operation State.ready
  cases h : s.active with
  | some a => exact .inl ⟨a, rfl, rfl⟩
  | none => cases hf : s.allocFails <;> simp

/-- An operation in a state that is ready. -/
theorem operation_ready {s : State} (h : s.ready = true) (u : Session) (body : State → Answer) :
    operation u s body = body s.popDraw := by
  obtain ⟨ha, hf⟩ := (s.ready_iff).1 h
  simp [operation, ha, hf]

/-- An operation whose environment draws a failure. -/
theorem operation_allocFails {s : State} (ha : s.active = none) (hf : s.allocFails = true) (u : Session)
    (body : State → Answer) : operation u s body = .next (s.popDraw.raise u .allocationFailure) := by
  simp [operation, ha, hf]

/-- An operation issued while another is in progress. -/
theorem operation_busy {s : State} {a : Active} (ha : s.active = some a) (u : Session) (body : State → Answer) :
    operation u s body = .refused .contextBusy := by
  simp [operation, ha]

@[simp] theorem State.complete_ok (s : State) (u : Session) (t : State) : s.complete u (.ok t) = .next t := rfl
@[simp] theorem State.complete_error (s : State) (u : Session) (e : ErrorKind) :
    s.complete u (.error e) = .next (s.raise u e) := rfl

/-- An operation with one turn always answers a next state. -/
theorem State.complete_next (s : State) (u : Session) (x : Except ErrorKind State) : ∃ t, s.complete u x = .next t := by
  cases x with
  | ok t => exact ⟨t, rfl⟩
  | error e => exact ⟨s.raise u e, rfl⟩

/-! ## Loops -/

@[simp] theorem Progress.ofExcept_ok {α β : Type} (k : β → Progress α) (b : β) : Progress.ofExcept k (.ok b) = k b := rfl
@[simp] theorem Progress.ofExcept_error {α β : Type} (k : β → Progress α) (e : ErrorKind) :
    Progress.ofExcept k (.error e) = .raised e := rfl
@[simp] theorem Turn.take_token {τ α : Type} (f : α → τ → Progress α) (t : τ) (c : α) :
    (Turn.token t c).take f = f c t := rfl
@[simp] theorem Turn.take_stop {τ α : Type} (f : α → τ → Progress α) (p : Progress α) : (Turn.stop p).take f = p := rfl

variable {α : Type} {turn : α → Progress α}

theorem runLoop_more {fuel : Nat} {c c' : α} (h : turn c = .more c') :
    runLoop turn (fuel + 1) c = runLoop turn fuel c' := by
  simp [runLoop, h]

theorem runLoop_done {fuel : Nat} {c c' : α} {st : Status} {r : Result} (h : turn c = .done c' st r) :
    runLoop turn (fuel + 1) c = .done c' st r := by
  simp [runLoop, h]

theorem runLoop_raised {fuel : Nat} {c : α} {e : ErrorKind} (h : turn c = .raised e) :
    runLoop turn (fuel + 1) c = .raised e := by
  simp [runLoop, h]

/-- A loop never ends in the middle. -/
theorem runLoop_ne_more (fuel : Nat) (c c' : α) : runLoop turn fuel c ≠ .more c' := by
  induction fuel generalizing c with
  | zero => simp [runLoop]
  | succ n ih =>
    simp only [runLoop]
    split
    · exact ih _
    · rename_i h; exact fun hc => h _ hc

/-- A property that every turn keeps holds of the context the loop returns with, and the loop returns or raises only what a
turn from such a context does. -/
theorem runLoop_invariant (I : α → Prop) (hmore : ∀ c c', I c → turn c = .more c' → I c') (fuel : Nat) (c : α) (hc : I c) :
    runLoop turn fuel c = .stuck .outOfFuel ∨ ∃ d, I d ∧ turn d = runLoop turn fuel c := by
  induction fuel generalizing c with
  | zero => exact .inl rfl
  | succ n ih =>
    cases h : turn c with
    | more c' => rw [runLoop_more h]; exact ih c' (hmore c c' hc h)
    | done c' st r => exact .inr ⟨c, hc, by rw [runLoop_done h, h]⟩
    | raised e => exact .inr ⟨c, hc, by rw [runLoop_raised h, h]⟩
    | stuck f => exact .inr ⟨c, hc, by simp [runLoop, h]⟩

/-- A loop whose turns decrease a measure ends within that many turns (R331). -/
theorem runLoop_ends (I : α → Prop) (μ : α → Nat)
    (hmore : ∀ c c', I c → turn c = .more c' → I c' ∧ μ c' < μ c) (fuel : Nat) (c : α) (hc : I c) (hf : μ c < fuel) :
    ∃ d, I d ∧ turn d = runLoop turn fuel c ∧ ∀ d', turn d ≠ .more d' := by
  induction fuel generalizing c with
  | zero => omega
  | succ n ih =>
    cases h : turn c with
    | more c' =>
      obtain ⟨hI, hμ⟩ := hmore c c' hc h
      rw [runLoop_more h]
      exact ih c' hI (by omega)
    | done c' st r => exact ⟨c, hc, by rw [runLoop_done h, h], by simp [h]⟩
    | raised e => exact ⟨c, hc, by rw [runLoop_raised h, h], by simp [h]⟩
    | stuck f => exact ⟨c, hc, by simp [runLoop, h], by simp [h]⟩

@[simp] theorem settle_more (u : Session) (mk : α → Active) (s : State) (c : α) :
    settle u mk s (.more c) = .next { s with active := some (mk c) } := rfl
@[simp] theorem settle_done (u : Session) (mk : α → Active) (s : State) (c : α) (st : Status) (r : Result) :
    settle u mk s (.done c st r) = .next (s.finish u st r) := rfl
@[simp] theorem settle_raised (u : Session) (mk : α → Active) (s : State) (e : ErrorKind) :
    settle u mk s (.raised e) = .next (s.raise u e) := rfl
@[simp] theorem settle_stuck (u : Session) (mk : α → Active) (s : State) (f : Fault) :
    settle u mk s (.stuck f : Progress α) = .fault f := rfl

end Sys2Proof.Machine
end

