-- ==== Sys2Proof/Laws/BitIo.lean ====
section
/-! SUPPORT. The lemmas of the bit writer and the bit reader: lengths, and what one read or write can do. -/

namespace Sys2Proof

@[simp] theorem msbBits_length (w v : Nat) : (msbBits w v).length = w := by simp [msbBits]
@[simp] theorem lsbBits_length (w v : Nat) : (lsbBits w v).length = w := by simp [lsbBits]

namespace Machine

@[simp] theorem streamBits_length (o : BitOrder) (w v : Nat) : (streamBits o w v).length = w := by
  cases o <;> simp [streamBits]

/-! ## The writer -/

/-- What placing one bit can do: the bit fills the byte, which is emitted, or it does not. -/
theorem BitWriter.putBit_ok {cap : Nat} {b b' : BitWriter} {x : Bool} (h : b.putBit cap x = .ok b') :
    b'.order = b.order ∧
    ((b.nbits + 1 = 8 ∧ b.out.length < cap ∧ b'.nbits = 0 ∧ b'.acc = 0 ∧
        b'.out = b.out ++ [b.acc ||| (BitVec.ofNat 8 x.toNat <<< b.pos)]) ∨
     (b.nbits + 1 ≠ 8 ∧ b'.nbits = b.nbits + 1 ∧ b'.out = b.out ∧
        b'.acc = b.acc ||| (BitVec.ofNat 8 x.toNat <<< b.pos))) := by
  unfold BitWriter.putBit at h
  by_cases h8 : b.nbits + 1 = 8
  · simp only [h8, if_true] at h
    split at h
    · rename_i out ho
      obtain ⟨hlt, rfl⟩ := emit_ok_iff.1 ho
      cases h
      exact ⟨rfl, .inl ⟨h8, hlt, rfl, rfl, rfl⟩⟩
    · cases h
  · simp only [h8, if_false] at h
    cases h
    exact ⟨rfl, .inr ⟨h8, rfl, rfl, rfl⟩⟩

/-- The only error of a write is AllocationFailure (R102). -/
theorem BitWriter.putBits_error {cap : Nat} {b : BitWriter} {xs : List Bool} {e : ErrorKind}
    (h : b.putBits cap xs = .error e) : e = .allocationFailure := by
  induction xs generalizing b with
  | nil => cases h
  | cons x xs ih =>
    simp only [BitWriter.putBits] at h
    split at h
    · exact ih h
    · rename_i y hy
      cases h
      unfold BitWriter.putBit at hy
      split at hy
      · dsimp only at hy
        split at hy
        · cases hy
        · rename_i z hz
          cases hy
          exact (emit_error_iff.1 hz).2
      · cases hy

theorem BitWriter.putBits_append (cap : Nat) (b : BitWriter) (xs ys : List Bool) :
    b.putBits cap (xs ++ ys) =
      match b.putBits cap xs with
      | .ok b' => b'.putBits cap ys
      | .error e => .error e := by
  induction xs generalizing b with
  | nil => rfl
  | cons x xs ih =>
    simp only [List.cons_append, BitWriter.putBits]
    cases b.putBit cap x with
    | ok b' => exact ih b'
    | error e => rfl

/-- R104: the count of the bits written is kept by `|Out|` and `nbits`. -/
theorem BitWriter.putBits_count {cap : Nat} {b b' : BitWriter} {xs : List Bool} (hn : b.nbits < 8)
    (h : b.putBits cap xs = .ok b') :
    b'.order = b.order ∧ b'.nbits < 8 ∧ 8 * b'.out.length + b'.nbits = 8 * b.out.length + b.nbits + xs.length := by
  induction xs generalizing b with
  | nil => cases h; exact ⟨rfl, hn, by simp⟩
  | cons x xs ih =>
    simp only [BitWriter.putBits] at h
    split at h
    · rename_i b₁ h₁
      obtain ⟨ho, hc⟩ := BitWriter.putBit_ok h₁
      have hn₁ : b₁.nbits < 8 := by omega
      obtain ⟨ho', hn', hcnt⟩ := ih hn₁ h
      refine ⟨ho'.trans ho, hn', ?_⟩
      rcases hc with ⟨h8, -, h0, -, hout⟩ | ⟨h8, h0, hout, -⟩
      · simp [hcnt, h0, hout]; omega
      · simp [hcnt, h0, hout]; omega
    · cases h

/-- A write that fits in `OUT_CAPACITY` succeeds (R102). -/
theorem BitWriter.putBits_fits {cap : Nat} {b : BitWriter} {xs : List Bool} (hn : b.nbits < 8)
    (hcap : (8 * b.out.length + b.nbits + xs.length) / 8 ≤ cap) : ∃ b', b.putBits cap xs = .ok b' := by
  induction xs generalizing b with
  | nil => exact ⟨b, rfl⟩
  | cons x xs ih =>
    simp only [List.length_cons] at hcap
    have h₁ : ∃ b₁, b.putBit cap x = .ok b₁ := by
      unfold BitWriter.putBit emit
      by_cases h8 : b.nbits + 1 = 8
      · have : b.out.length < cap := by omega
        simp [h8, this]
      · simp [h8]
    obtain ⟨b₁, h₁⟩ := h₁
    obtain ⟨-, hc⟩ := BitWriter.putBit_ok h₁
    simp only [BitWriter.putBits, h₁]
    apply ih
    · omega
    · rcases hc with ⟨h8, -, h0, -, hout⟩ | ⟨h8, h0, hout, -⟩
      · simp [h0, hout]; omega
      · simp [h0, hout]; omega

/-! ## The reader -/

@[simp] theorem BitReader.peek_length (r : BitReader) (n : Nat) : (r.peek n).length = min n r.remaining := by
  simp [BitReader.peek]

/-- What `ReadBits` can do (R106, R107). -/
theorem BitReader.readBits_some {r r' : BitReader} {width v : Nat} (h : r.readBits width = some (v, r')) :
    width ≤ r.remaining ∧ v = streamValue r.order (r.peek width) ∧ r' = { r with bitpos := r.bitpos + width } := by
  unfold BitReader.readBits at h
  split at h
  · cases h
  · cases h; exact ⟨by omega, rfl, rfl⟩

/-- `ReadBits` reports end of input exactly where too few bits remain (R107). -/
theorem BitReader.readBits_none {r : BitReader} {width : Nat} : r.readBits width = none ↔ r.remaining < width := by
  unfold BitReader.readBits
  split <;> simp_all

/-! ## Code words -/

/-- A code word that is read is in the set, and uses at least one bit, at most those shown and at most `fuel`. -/
theorem matchCode_ok {c : Polarity} {fuel len code : Nat} {bits : List Bool} {e : Entry}
    (h : matchCode c fuel len code bits = .ok e) :
    e ∈ codeSet c ∧ len < e.bitLength ∧ e.bitLength ≤ len + bits.length ∧ e.bitLength ≤ len + fuel := by
  induction fuel generalizing len code bits with
  | zero => simp [matchCode] at h
  | succ n ih =>
    cases bits with
    | nil => simp [matchCode] at h
    | cons b bs =>
      simp only [matchCode] at h
      split at h
      · rename_i x hx
        cases h
        have hp := List.find?_some hx
        simp only [Bool.and_eq_true, beq_iff_eq] at hp
        refine ⟨List.mem_of_find?_eq_some hx, ?_, ?_, ?_⟩ <;> (try simp only [List.length_cons]) <;> omega
      · obtain ⟨h₁, h₂, h₃, h₄⟩ := ih h
        simp only [List.length_cons]
        exact ⟨h₁, by omega, by omega, by omega⟩

/-- What `ReadCode` can do (R143). -/
theorem HufDec.readCode_ok {d d' : HufDec} {e : Entry} (h : d.readCode = .ok (e, d')) :
    e ∈ codeSet d.color ∧ 0 < e.bitLength ∧ e.bitLength ≤ d.br.remaining ∧ e.bitLength ≤ hufMaxCodeLen ∧
    d' = { d with br := { d.br with bitpos := d.br.bitpos + e.bitLength }, sbCode := e.code, sbLen := e.bitLength } := by
  unfold HufDec.readCode at h
  split at h
  · rename_i x hx
    cases h
    obtain ⟨h₁, h₂, h₃, h₄⟩ := matchCode_ok hx
    simp only [BitReader.peek_length] at h₃
    exact ⟨h₁, h₂, by omega, by omega, rfl⟩
  · cases h

/-- The only error of `ReadCode` (R143, R145). -/
theorem HufDec.readCode_error {d : HufDec} {x : ErrorKind} (h : d.readCode = .error x) : x = .corruptBitstream := by
  unfold HufDec.readCode at h
  split at h
  · cases h
  · cases h; rfl

end Machine

end Sys2Proof
end

