-- ==== Sys2Proof/Laws/Decode.lean ====
section
/-! SUPPORT. The decoders on the encoder's words, one lemma for each form whose operands need an argument. -/

namespace Sys2Proof

open Sys2Proof.Machine

/-- A command is decoded by its opcode's row and its operands. -/
theorem roundTrip_of_build {i : Instr} {op : Opcode} {args : List Operand}
    (he : encode i = .command op.byte args) (hop : decodeOpcode op.byte = some op) (hb : buildInstr op args = some i) :
    decode (encode i) = .ok i := by
  simp [he, decode, decodeCommand, hop, hb]

theorem buildInstr_bwWrite (v : Word16) (w : Nat) : buildInstr .bwWrite [.num v.toNat, .num w] = some (.bwWrite v w) := by
  have := v.isLt
  simp [buildInstr, this]

theorem buildInstr_a85EncByte (b : Byte) : buildInstr .a85EncByte [.num b.toNat] = some (.a85EncByte b) := by
  have := b.isLt
  simp [buildInstr, this]

/-- R72: the reserved opcodes are those the table has no row for. -/
theorem decodeOpcode_none_iff : ∀ b : Byte, decodeOpcode b = none ↔ reservedOk b = true := by decide +kernel

theorem decode_reserved {p : Params} {b : Byte} (h : WellFormed p (.reservedOpcode b) = true) :
    decode (encode (.reservedOpcode b)) = .ok (.reservedOpcode b) := by
  have : decodeOpcode b = none := (decodeOpcode_none_iff b).2 h
  simp [encode, encodeCommand, decode, decodeCommand, this]

theorem decode_lzwLiteral (c : Byte) : decode (encode (.lzwLiteral c)) = .ok (.lzwLiteral c) := by
  revert c; decide +kernel

/-- The bounds of a string code. -/
theorem lzwCodeOk_iff {k : Nat} : lzwCodeOk k = true ↔ 258 ≤ k ∧ k < 4096 := by
  rw [lzwCodeOk, Bool.and_eq_true, decide_eq_true_iff, decide_eq_true_iff]; rfl

theorem decode_lzwString {p : Params} {k : Nat} (h : WellFormed p (.lzwString k) = true) :
    decode (encode (.lzwString k)) = .ok (.lzwString k) := by
  obtain ⟨h₁, -⟩ := lzwCodeOk_iff.1 h
  show Except.ok (decodeLzw true (k + 1) k).instr = _
  simp [decodeLzw, clearCode, endCode, LzwTok.instr, show ¬ k = 256 by omega, show ¬ k = 257 by omega,
    show ¬ k < 256 by omega]

theorem decode_lzwIllegal {p : Params} {k : Nat} (h : WellFormed p (.lzwIllegal k) = true) :
    decode (encode (.lzwIllegal k)) = .ok (.lzwIllegal k) := by
  obtain ⟨h₁, -⟩ := lzwCodeOk_iff.1 h
  show Except.ok (decodeLzw false firstFree k).instr = _
  simp [decodeLzw, clearCode, endCode, LzwTok.instr, show ¬ k = 256 by omega, show ¬ k = 257 by omega,
    show ¬ k < 256 by omega]

theorem decode_sbLength {p : Params} {len : Byte} (h : WellFormed p (.sbLength len) = true) :
    decode (encode (.sbLength len)) = .ok (.sbLength len) := by
  have hne : ¬ len = 0 := of_decide_eq_true h
  show Except.ok (decodeSb len).instr = _
  rw [decodeSb, if_neg hne]; rfl

theorem decode_pbLiteral (n : BitVec 7) : decode (encode (.pbLiteral n)) = .ok (.pbLiteral n) := by
  revert n; decide +kernel

theorem decode_pbRepeat_of_ne : ∀ h : BitVec 7, h ≠ 0 → decode (encode (.pbRepeat h)) = .ok (.pbRepeat h) := by
  decide +kernel

theorem decode_pbRepeat {p : Params} {h : BitVec 7} (hw : WellFormed p (.pbRepeat h) = true) :
    decode (encode (.pbRepeat h)) = .ok (.pbRepeat h) :=
  decode_pbRepeat_of_ne h (of_decide_eq_true hw)

theorem decode_cvPacket (v : List Byte) (k : Byte) : decode (encode (.cvPacket v k)) = .ok (.cvPacket v k) := by
  simp [encode, encodeCommand, encodeToken, codeEntry, decode, decodeCv]

theorem decode_a85Digit {p : Params} {d : Nat} (h : WellFormed p (.a85Digit d) = true) :
    decode (encode (.a85Digit d)) = .ok (.a85Digit d) := by
  have hd : d ≤ 84 := by simpa [WellFormed] using h
  have : ∀ d : Fin 85, decode (encode (.a85Digit d.val)) = .ok (.a85Digit d.val) := by decide +kernel
  exact this ⟨d, by omega⟩

theorem decode_a85Whitespace_of_ok :
    ∀ b : Byte, whitespaceOk b = true → decode (encode (.a85Whitespace b)) = .ok (.a85Whitespace b) := by
  decide +kernel

theorem decode_a85Whitespace {p : Params} {b : Byte} (h : WellFormed p (.a85Whitespace b) = true) :
    decode (encode (.a85Whitespace b)) = .ok (.a85Whitespace b) := decode_a85Whitespace_of_ok b h

theorem decode_a85Illegal_of_ok :
    ∀ b : Byte, illegalOk b = true → decode (encode (.a85Illegal b)) = .ok (.a85Illegal b) := by
  decide +kernel

theorem decode_a85Illegal {p : Params} {b : Byte} (h : WellFormed p (.a85Illegal b) = true) :
    decode (encode (.a85Illegal b)) = .ok (.a85Illegal b) := decode_a85Illegal_of_ok b h

end Sys2Proof
end

