-- ==== Sys2Proof/Laws/Loops.lean ====
section
/-! SUPPORT. Every operation's loop ends (R331): for each unit, what a turn that goes on does to the measure of its loop, and
the operation as a whole. -/

namespace Sys2Proof.Machine

theorem Progress.ofExcept_more {α β : Type} {k : β → Progress α} {x : Except ErrorKind β} {c : α}
    (h : Progress.ofExcept k x = .more c) : ∃ b, x = .ok b ∧ k b = .more c := by
  cases x with
  | ok b => exact ⟨b, rfl, h⟩
  | error e => cases h

/-! ## The byte coders -/

theorem ByteCoder.emitAt_ok {p : Params} {c c' : ByteCoder} {bytes : List Byte} {i : Nat}
    (h : c.emitAt p bytes i = .ok c') : c' = { c with out := c.out ++ bytes, i := i } := by
  unfold ByteCoder.emitAt at h
  split at h
  · rename_i out ho
    cases h
    obtain ⟨rfl, -⟩ := emitAll_ok ho
    rfl
  · cases h

/-- R331: a turn of the packer that goes on consumes a byte. -/
theorem sbPackTurn_more {p : Params} {c c' : ByteCoder} (h : sbPackTurn p c = .more c') :
    c'.input = c.input ∧ c.i < c.input.length ∧ c.i < c'.i := by
  unfold sbPackTurn at h
  split at h
  · rename_i hlt
    obtain ⟨b, hb, hk⟩ := Progress.ofExcept_more h
    cases hk
    have := ByteCoder.emitAt_ok hb
    subst this
    exact ⟨rfl, hlt, by simp [subBlockMax]; omega⟩
  · obtain ⟨b, -, hk⟩ := Progress.ofExcept_more h
    cases hk

/-- R331: a turn of the unpacker that goes on consumes a byte. -/
theorem sbUnpackTurn_more {p : Params} {c c' : ByteCoder} (h : sbUnpackTurn p c = .more c') :
    c'.input = c.input ∧ c.i < c.input.length ∧ c.i < c'.i := by
  unfold sbUnpackTurn sbTurn at h
  split at h
  · rename_i b hb
    have hlt : c.i < c.input.length := (List.getElem?_eq_some_iff.1 hb).1
    simp only [Turn.take_token] at h
    cases hd : decodeSb b with
    | terminator => rw [hd] at h; cases h
    | length len =>
      rw [hd] at h
      simp only [sbAccept, sbData] at h
      split at h
      · cases h
      · obtain ⟨x, hx, hk⟩ := Progress.ofExcept_more h
        cases hk
        have := ByteCoder.emitAt_ok hx
        subst this
        exact ⟨rfl, hlt, by simp; omega⟩
  · cases h

theorem pbRunLength_pos (b : Byte) (bs : List Byte) : 0 < pbRunLength (b :: bs) := by simp [pbRunLength]

theorem pbLiteralLength_pos {b : Byte} {bs : List Byte} (h : pbRunLength (b :: bs) < pbMinRepeat) :
    0 < pbLiteralLength pbMaxLiteral (b :: bs) := by
  unfold pbMaxLiteral pbLiteralLength
  split
  · rename_i hs
    exfalso
    match bs with
    | [] => simp [pbStartsRepeat] at hs
    | [_] => simp [pbStartsRepeat] at hs
    | x :: y :: _ =>
      simp only [pbStartsRepeat, Bool.and_eq_true, beq_iff_eq] at hs
      obtain ⟨rfl, rfl⟩ := hs
      simp [pbRunLength, pbMinRepeat, pbMaxRepeat] at h
      omega
  · omega

/-- R331: a turn of the PackBits encoder that goes on consumes a byte. -/
theorem pbEncTurn_more {p : Params} {c c' : ByteCoder} (h : pbEncTurn p c = .more c') :
    c'.input = c.input ∧ c.i < c.input.length ∧ c.i < c'.i := by
  unfold pbEncTurn at h
  split at h
  · cases h
  · rename_i b bs hr
    have hlt : c.i < c.input.length := by
      have : (c.input.drop c.i).length = (b :: bs).length := by rw [← hr]; rfl
      simp at this; omega
    dsimp only at h
    split at h
    · obtain ⟨x, hx, hk⟩ := Progress.ofExcept_more h
      cases hk
      have := ByteCoder.emitAt_ok hx
      subst this
      exact ⟨rfl, hlt, by have := pbRunLength_pos b bs; simp; omega⟩
    · rename_i hlt3
      obtain ⟨x, hx, hk⟩ := Progress.ofExcept_more h
      cases hk
      have := ByteCoder.emitAt_ok hx
      subst this
      exact ⟨rfl, hlt, by have := pbLiteralLength_pos (b := b) (bs := bs) (by omega); simp; omega⟩

/-- A byte coder's loop ends. -/
theorem byteCoder_ends {turn : ByteCoder → Progress ByteCoder}
    (hturn : ∀ c c', turn c = .more c' → c'.input = c.input ∧ c.i < c.input.length ∧ c.i < c'.i) (input : List Byte) :
    ∃ d, turn d = runLoop turn (input.length + 1) (ByteCoder.fresh input) ∧ ∀ d', turn d ≠ .more d' := by
  obtain ⟨d, -, h₁, h₂⟩ := runLoop_ends (turn := turn) (fun _ => True) (fun c => c.input.length - c.i)
    (fun c c' _ h => by
      obtain ⟨h₁, h₂, h₃⟩ := hturn c c' h
      exact ⟨trivial, by rw [h₁]; omega⟩)
    (input.length + 1) (ByteCoder.fresh input) trivial (by simp [ByteCoder.fresh])
  exact ⟨d, h₁, h₂⟩

/-! ## PackBits decoder -/

theorem PbDec.chunk_more {p : Params} {c c' : PbDec} {bytes : List Byte} {i : Nat} (h : c.chunk p bytes i = .more c') :
    c' = { c with out := c.out ++ bytes, i := i, produced := c.produced + bytes.length } ∧
      c.produced + bytes.length ≤ c.total := by
  unfold PbDec.chunk at h
  split at h
  · cases h
  · rename_i hle
    obtain ⟨x, hx, hk⟩ := Progress.ofExcept_more h
    cases hk
    obtain ⟨rfl, -⟩ := emitAll_ok hx
    exact ⟨rfl, by omega⟩

/-- R331: a turn of the PackBits decoder that goes on consumes a byte. -/
theorem PbDec.advance_more {p : Params} {c c' : PbDec} (h : c.advance p = .more c') :
    c'.input = c.input ∧ c.i < c.input.length ∧ c.i < c'.i := by
  unfold PbDec.advance PbDec.turn at h
  split at h
  · split at h
    · rename_i b hb
      have hlt : c.i < c.input.length := (List.getElem?_eq_some_iff.1 hb).1
      simp only [Turn.take_token] at h
      cases hd : decodePb b with
      | literal n =>
        rw [hd] at h
        simp only [PbDec.accept, PbDec.literal] at h
        split at h
        · cases h
        · obtain ⟨rfl, -⟩ := PbDec.chunk_more h
          exact ⟨rfl, hlt, by simp; omega⟩
      | illegal80 => rw [hd] at h; cases h
      | rep x =>
        rw [hd] at h
        simp only [PbDec.accept, PbDec.rep] at h
        split at h
        · obtain ⟨rfl, -⟩ := PbDec.chunk_more h
          exact ⟨rfl, hlt, by simp⟩
        · cases h
    · cases h
  · cases h

theorem PbDec.run_ends (p : Params) (input : List Byte) (total : Nat) :
    ∃ d, PbDec.advance p d = PbDec.run p input total ∧ ∀ d', PbDec.advance p d ≠ .more d' := by
  obtain ⟨d, -, h₁, h₂⟩ := runLoop_ends (turn := PbDec.advance p) (fun _ => True) (fun c => c.input.length - c.i)
    (fun c c' _ h => by
      obtain ⟨h₁, h₂, h₃⟩ := PbDec.advance_more h
      exact ⟨trivial, by rw [h₁]; omega⟩)
    (input.length + 1) ⟨input, 0, total, 0, []⟩ trivial (by simp)
  exact ⟨d, h₁, h₂⟩

/-! ## Count/value coder -/

/-- The runs not yet begun. -/
def CvEnc.todo (c : CvEnc) : List CvRun := c.runs.drop c.i

/-- The turns left to the count/value encoder, at most. -/
def CvEnc.measure (c : CvEnc) : Nat := c.todo.length + runTotal c.todo + (c.split.map CvRun.count).getD 0

/-- R331: a turn of the count/value encoder that goes on takes a run or a packet of at least one sample. -/
theorem CvEnc.advance_more {p : Params} {c c' : CvEnc} (hs : c.split.all fun r => decide (0 < r.count))
    (ht : c.runs.all fun r => decide (0 < r.count)) (h : c.advance p = .more c') :
    (c'.split.all fun r => decide (0 < r.count)) ∧ c'.runs = c.runs ∧ c.i ≤ c'.i ∧ c'.measure < c.measure := by
  unfold CvEnc.advance at h
  split at h
  · rename_i r hr
    dsimp only at h
    obtain ⟨out, -, hk⟩ := Progress.ofExcept_more h
    cases hk
    simp only [hr, Option.all_some, decide_eq_true_eq] at hs
    refine ⟨?_, rfl, Nat.le_refl _, ?_⟩
    · split
      · rfl
      · rename_i hne
        simp only [cvMaxPacket, Option.all_some, decide_eq_true_eq] at hne ⊢
        omega
    · simp only [CvEnc.measure, CvEnc.todo, hr, Option.map_some, Option.getD_some]
      split
      · simp; omega
      · simp [cvMaxPacket]; omega
  · rename_i hr
    split at h
    · rename_i r hrs
      cases h
      obtain ⟨hlt, rfl⟩ := List.getElem?_eq_some_iff.1 hrs
      have hpos := List.all_eq_true.1 ht _ (List.getElem_mem hlt)
      refine ⟨by simpa using hpos, rfl, Nat.le_succ _, ?_⟩
      simp only [CvEnc.measure, CvEnc.todo, hr, List.drop_eq_getElem_cons hlt, runTotal, List.map_cons, List.sum_cons,
        List.length_cons, Option.map_some, Option.map_none, Option.getD_some, Option.getD_none]
      omega
    · cases h

theorem CvEnc.run_ends (p : Params) (runs : List CvRun) (h : runs.all fun r => decide (0 < r.count)) :
    ∃ d, CvEnc.advance p d = CvEnc.run p runs ∧ ∀ d', CvEnc.advance p d ≠ .more d' := by
  obtain ⟨d, -, h₁, h₂⟩ := runLoop_ends (turn := CvEnc.advance p)
    (fun c => (c.split.all fun r => decide (0 < r.count)) = true ∧ c.runs = runs)
    CvEnc.measure
    (fun c c' hc hm => by
      obtain ⟨h₁, h₂, -, h₃⟩ := CvEnc.advance_more hc.1 (hc.2 ▸ h) hm
      exact ⟨⟨h₁, h₂.trans hc.2⟩, h₃⟩)
    (runs.length + runTotal runs + 1) (CvEnc.fresh runs) ⟨rfl, rfl⟩ (by simp [CvEnc.measure, CvEnc.todo, CvEnc.fresh])
  exact ⟨d, h₁, h₂⟩

theorem decodeCv_some {n : Nat} {bytes v : List Byte} {k : Byte} (h : decodeCv n bytes = some (v, k)) :
    n < bytes.length ∧ v = bytes.take n ∧ v.length = n := by
  unfold decodeCv at h
  split at h
  · rename_i x xs hx
    cases h
    have : (bytes.drop n).length = (k :: xs).length := by rw [hx]
    simp at this
    exact ⟨by omega, rfl, by simp; omega⟩
  · cases h

/-- R331: a turn of the count/value decoder that goes on consumes a packet. -/
theorem CvDec.advance_more {p : Params} {c c' : CvDec} (h : c.advance p = .more c') :
    c'.input = c.input ∧ c.i < c.input.length ∧ c.i < c'.i := by
  unfold CvDec.advance CvDec.turn at h
  split at h
  · split at h
    · rename_i t ht
      obtain ⟨v, k⟩ := t
      obtain ⟨hlt, -, -⟩ := decodeCv_some ht
      simp only [List.length_drop] at hlt
      simp only [Turn.take_token, CvDec.packet] at h
      split at h
      · cases h
      · cases h
        exact ⟨rfl, by omega, by simp⟩
    · cases h
  · cases h

theorem CvDec.run_ends (p : Params) (input : List Byte) (total : Nat) :
    ∃ d, CvDec.advance p d = CvDec.run p input total ∧ ∀ d', CvDec.advance p d ≠ .more d' := by
  obtain ⟨d, -, h₁, h₂⟩ := runLoop_ends (turn := CvDec.advance p) (fun _ => True) (fun c => c.input.length - c.i)
    (fun c c' _ h => by
      obtain ⟨h₁, h₂, h₃⟩ := CvDec.advance_more h
      exact ⟨trivial, by rw [h₁]; omega⟩)
    (input.length + 1) ⟨input, 0, total, 0, []⟩ trivial (by simp)
  exact ⟨d, h₁, h₂⟩

/-! ## Ascii85 decoder -/

/-- R331: a turn of the Ascii85 decoder that goes on consumes a character. -/
theorem A85Dec.advance_more {p : Params} {c c' : A85Dec} (h : c.advance p = .more c') :
    c'.input = c.input ∧ c.i < c.input.length ∧ c'.i = c.i + 1 := by
  unfold A85Dec.advance A85Dec.turn at h
  split at h
  · rename_i ch hch
    have hlt : c.i < c.input.length := (List.getElem?_eq_some_iff.1 hch).1
    simp only [Turn.take_token] at h
    cases hd : decodeA85 ch c.input[c.i + 1]? with
    | digit d =>
      rw [hd] at h
      simp only [A85Dec.accept, A85Dec.digit] at h
      split at h
      · split at h
        · cases h
        · obtain ⟨x, -, hk⟩ := Progress.ofExcept_more h
          cases hk
          exact ⟨rfl, hlt, rfl⟩
      · cases h; exact ⟨rfl, hlt, rfl⟩
    | zero =>
      rw [hd] at h
      simp only [A85Dec.accept, A85Dec.zero] at h
      split at h
      · cases h
      · obtain ⟨x, -, hk⟩ := Progress.ofExcept_more h
        cases hk
        exact ⟨rfl, hlt, rfl⟩
    | stop =>
      rw [hd] at h
      obtain ⟨x, -, hk⟩ := Progress.ofExcept_more h
      cases hk
    | linebreak => rw [hd] at h; cases h; exact ⟨rfl, hlt, rfl⟩
    | whitespace b => rw [hd] at h; cases h; exact ⟨rfl, hlt, rfl⟩
    | illegal b => rw [hd] at h; cases h
  · cases h

theorem A85Dec.run_ends (p : Params) (input : List Byte) :
    ∃ d, A85Dec.advance p d = A85Dec.run p input ∧ ∀ d', A85Dec.advance p d ≠ .more d' := by
  obtain ⟨d, -, h₁, h₂⟩ := runLoop_ends (turn := A85Dec.advance p) (fun _ => True) (fun c => c.input.length - c.i)
    (fun c c' _ h => by
      obtain ⟨h₁, h₂, h₃⟩ := A85Dec.advance_more h
      exact ⟨trivial, by rw [h₁]; omega⟩)
    (input.length + 1) ⟨input, 0, [], []⟩ trivial (by simp)
  exact ⟨d, h₁, h₂⟩

/-! ## LZW -/

theorem LzwEnc.emitCode_ok {p : Params} {c c' : LzwEnc} {k : Nat} (h : c.emitCode p k = .ok c') :
    ∃ bw, c.bw.writeBits p.outCapacity k c.width = .ok bw ∧ c' = { c with bw := bw } := by
  unfold LzwEnc.emitCode at h
  split at h
  · rename_i bw hbw; cases h; exact ⟨bw, hbw, rfl⟩
  · cases h

/-- R331: a turn of the LZW encoder that goes on consumes a byte. -/
theorem LzwEnc.advance_more {p : Params} {c c' : LzwEnc} (h : c.advance p = .more c') :
    c.i < c.input.length ∧ c'.i = c.i + 1 ∧ c'.input = c.input := by
  unfold LzwEnc.advance at h
  split at h
  · rename_i b hb
    have hlt : c.i < c.input.length := (List.getElem?_eq_some_iff.1 hb).1
    obtain ⟨x, hx, hk⟩ := Progress.ofExcept_more h
    cases hk
    refine ⟨hlt, rfl, ?_⟩
    show x.input = c.input
    unfold LzwEnc.byte at hx
    split at hx
    · cases hx; rfl
    · split at hx
      · cases hx; rfl
      · cases h₁ : c.emitCode p _ with
        | error e => rw [h₁] at hx; cases hx
        | ok c₁ =>
          obtain ⟨bw, -, rfl⟩ := LzwEnc.emitCode_ok h₁
          rw [h₁] at hx
          simp only [bind, Except.bind] at hx
          unfold LzwEnc.grow at hx
          split at hx
          · cases hx
          · rename_i c₂ hc₂
            cases hx
            split at hc₂
            · cases hc₂; rfl
            · split at hc₂
              · rename_i c₃ hc₃
                cases hc₂
                obtain ⟨bw', -, rfl⟩ := LzwEnc.emitCode_ok hc₃
                rfl
              · cases hc₂
  · obtain ⟨x, -, hk⟩ := Progress.ofExcept_more h
    cases hk

theorem LzwDec.emitString_more {p : Params} {c c' : LzwDec} {k : Nat} {s : List Byte}
    (h : c.emitString p k s = .more c') : c'.br = c.br := by
  unfold LzwDec.emitString at h
  obtain ⟨x, -, hk⟩ := Progress.ofExcept_more h
  dsimp only at hk
  split at hk
  · cases hk
  · cases hk
    unfold LzwDec.grow
    split
    · rfl
    · dsimp only; split <;> rfl

theorem LzwDec.accept_more {p : Params} {c c' : LzwDec} {t : LzwTok} (h : c.accept p t = .more c') : c'.br = c.br := by
  cases t with
  | literal b => exact LzwDec.emitString_more h
  | clear => cases h; rfl
  | stop => simp only [LzwDec.accept, LzwDec.finish] at h; split at h <;> cases h
  | string k =>
    simp only [LzwDec.accept, LzwDec.known] at h
    split at h
    · exact LzwDec.emitString_more h
    · cases h
  | next =>
    simp only [LzwDec.accept, LzwDec.special] at h
    split at h
    · exact LzwDec.emitString_more h
    · cases h
  | illegal k => cases h

/-- R331: a turn of the LZW decoder that goes on consumes the bits of one code. -/
theorem LzwDec.advance_more {p : Params} {c c' : LzwDec} (h : c.advance p = .more c') :
    c.width ≤ c.br.remaining ∧ c'.br = { c.br with bitpos := c.br.bitpos + c.width } := by
  unfold LzwDec.advance LzwDec.turn at h
  split at h
  · rename_i k br hr
    obtain ⟨hle, -, rfl⟩ := BitReader.readBits_some hr
    simp only [Turn.take_token] at h
    exact ⟨hle, LzwDec.accept_more h⟩
  · cases h

/-! ## Huffman decoder -/

/-- The turns left to an operation of the decoder, at most: none are left before a scanline at a padding tail, since the
next turn ends the operation. -/
def HufRun.measure (r : HufRun) : Nat :=
  match r.phase with
  | .head => if r.dec.br.paddingTail then 0 else 3 * r.dec.br.remaining + 2
  | .code _ => 3 * r.dec.br.remaining + 1

theorem HufRun.endLine_more {r r' : HufRun} {l : LineEnd} (h : r.endLine l = .more r') :
    r'.dec.br = r.dec.br ∧ r'.phase = .head ∧ l ≠ .endOfInput := by
  unfold HufRun.endLine at h
  split at h
  · cases h
  · cases h
  · cases h
  · cases h
  · split at h
    · cases h
    · cases h; exact ⟨rfl, rfl, by simp⟩
  · cases h; exact ⟨rfl, rfl, by simp⟩

theorem HufRun.accept_more {r r' : HufRun} {first : Bool} {e : Entry} (h : r.accept first e = .more r') :
    r'.dec.br = r.dec.br := by
  unfold HufRun.accept at h
  split at h
  · split at h
    · exact (HufRun.endLine_more h).1
    · cases h
  · split at h
    · split at h
      · cases h
      · split at h
        · exact (HufRun.endLine_more h).1
        · exact (HufRun.endLine_more h).1
    all_goals
      obtain ⟨d, hd, hk⟩ := Progress.ofExcept_more h
      cases hk
      first | unfold HufDec.closeRun at hd | unfold HufDec.addMakeup at hd
      split at hd
      · cases hd
      · cases hd; rfl

/-- R331: a turn of the Huffman decoder that goes on leaves fewer turns. -/
theorem HufRun.advance_more {r r' : HufRun} (h : r.advance = .more r') : r'.measure < r.measure := by
  have hhead : ∀ x : HufRun, x.phase = .head → x.measure ≤ 3 * x.dec.br.remaining + 2 := by
    intro x hx; simp only [HufRun.measure, hx]; split <;> omega
  unfold HufRun.advance HufRun.turn at h
  split at h
  · rename_i hph
    have hb : r.beginLine = .more r' → r'.measure < r.measure := by
      intro hb
      unfold HufRun.beginLine at hb
      split at hb
      · exact absurd rfl (HufRun.endLine_more hb).2.2
      · rename_i hpt
        cases hb
        simp [HufRun.measure, hph, hpt]
    split at h
    · exact hb h
    · split at h
      · exact hb h
      · cases h
  · rename_i first hph
    split at h
    · rename_i hfull
      obtain ⟨h₁, h₂, -⟩ := HufRun.endLine_more h
      simp [HufRun.measure, hph, h₁, h₂, hfull.2]
    · split at h
      · rename_i e d he
        obtain ⟨-, hpos, hle, -, rfl⟩ := HufDec.readCode_ok he
        simp only [Turn.take_token] at h
        have hbr := HufRun.accept_more h
        have hrem : r'.dec.br.remaining + e.bitLength = r.dec.br.remaining := by
          rw [hbr]; simp only [BitReader.remaining] at hle ⊢; omega
        have : r'.measure ≤ 3 * r'.dec.br.remaining + 2 := by
          simp only [HufRun.measure]; split
          · split <;> omega
          · omega
        have hm : r.measure = 3 * r.dec.br.remaining + 1 := by simp only [HufRun.measure, hph]
        omega
      · cases h

theorem HufDec.run_ends (d : HufDec) (mode : HufMode) :
    ∃ r, HufRun.advance r = d.run mode ∧ ∀ r', HufRun.advance r ≠ .more r' := by
  obtain ⟨r, -, h₁, h₂⟩ := runLoop_ends (turn := HufRun.advance) (fun _ => True) HufRun.measure
    (fun c c' _ h => ⟨trivial, HufRun.advance_more h⟩) d.fuel ⟨d, mode, .head⟩ trivial
    (by simp only [HufRun.measure, HufDec.fuel]; split <;> omega)
  exact ⟨r, h₁, h₂⟩

end Sys2Proof.Machine
end

