-- ==== Sys2Proof/Laws/Step.lean ====
section
/-! SUPPORT. What a step is in each state, the shared meaning of the Huffman code words, and the ends of the LZW operations. -/

namespace Sys2Proof.Machine

/-! ## The step -/

theorem step_idle {s : State} (ha : s.active = none) (hq : s.queue = []) : step s = .next s := by
  simp [step, fetch, fetchCommand, ha, hq]

theorem step_command {s : State} {c : Command} {q : List Command} {i : Instr} (ha : s.active = none) (hq : s.queue = c :: q)
    (hd : decode (.command c.opcode c.operands) = .ok i) : step s = exec i { s with queue := q } := by
  simp [step, fetch, fetchCommand, ha, hq, hd]

theorem step_bad_command {s : State} {c : Command} {q : List Command} {e : DecodeError} (ha : s.active = none)
    (hq : s.queue = c :: q) (hd : decode (.command c.opcode c.operands) = .error e) :
    step s = refuseOperands c.opcode { s with queue := q } := by
  simp [step, fetch, fetchCommand, ha, hq, hd]

theorem step_hufDec {s : State} {mode : HufMode} {phase : HufPhase} {d : HufDec} (ha : s.active = some (.hufDec mode phase))
    (hd : s.hufDec = some d) :
    step s = match HufRun.turn ⟨d, mode, phase⟩ with
      | .token e r => exec e.instr { s with hufDec := some r.dec }
      | .stop p => settleHuf s p := by
  simp only [step, fetch, fetchHuf, ha, hd]
  cases HufRun.turn ⟨d, mode, phase⟩ <;> rfl

theorem step_lzwDec {s : State} {c : LzwDec} (ha : s.active = some (.lzwDec c)) :
    step s = match c.turn with
      | .token t c => exec t.instr { s with active := some (.lzwDec c) }
      | .stop p => settle .lzwDec .lzwDec s p := by
  simp only [step, fetch, ha]
  cases c.turn <;> rfl

theorem step_sbUnpack {s : State} {c : ByteCoder} (ha : s.active = some (.sbUnpack c)) :
    step s = match sbTurn c with
      | .token t c => exec t.instr { s with active := some (.sbUnpack c) }
      | .stop p => settle .sbUnpack .sbUnpack s p := by
  simp only [step, fetch, ha]
  cases sbTurn c <;> rfl

theorem step_pbDec {s : State} {c : PbDec} (ha : s.active = some (.pbDec c)) :
    step s = match c.turn with
      | .token t c => exec t.instr { s with active := some (.pbDec c) }
      | .stop p => settle .pbDec .pbDec s p := by
  simp only [step, fetch, ha]
  cases c.turn <;> rfl

theorem step_cvDec {s : State} {c : CvDec} (ha : s.active = some (.cvDec c)) :
    step s = match c.turn s.params with
      | .token t c => exec (.cvPacket t.1 t.2) { s with active := some (.cvDec c) }
      | .stop p => settle .cvDec .cvDec s p := by
  simp only [step, fetch, ha]
  cases c.turn s.params <;> rfl

theorem step_a85Dec {s : State} {c : A85Dec} (ha : s.active = some (.a85Dec c)) :
    step s = match c.turn with
      | .token t c => exec t.instr { s with active := some (.a85Dec c) }
      | .stop p => settle .a85Dec .a85Dec s p := by
  simp only [step, fetch, ha]
  cases c.turn <;> rfl

theorem step_lzwEnc {s : State} {c : LzwEnc} (ha : s.active = some (.lzwEnc c)) :
    step s = settle .lzwEnc .lzwEnc s (c.advance s.params) := by simp [step, fetch, ha]

theorem step_sbPack {s : State} {c : ByteCoder} (ha : s.active = some (.sbPack c)) :
    step s = settle .sbPack .sbPack s (sbPackTurn s.params c) := by simp [step, fetch, ha]

theorem step_pbEnc {s : State} {c : ByteCoder} (ha : s.active = some (.pbEnc c)) :
    step s = settle .pbEnc .pbEnc s (pbEncTurn s.params c) := by simp [step, fetch, ha]

theorem step_cvEnc {s : State} {c : CvEnc} (ha : s.active = some (.cvEnc c)) :
    step s = settle .cvEnc .cvEnc s (c.advance s.params) := by simp [step, fetch, ha]

theorem stepsToEnd_none {n : Nat} {s : State} (ha : s.active = none) : stepsToEnd n s = .next s := by
  cases n <;> simp [stepsToEnd, ha]

theorem stepsToEnd_succ {n : Nat} {s t : State} {a : Active} (ha : s.active = some a) (h : step s = .next t) :
    stepsToEnd (n + 1) s = stepsToEnd n t := by
  simp [stepsToEnd, ha, h]

/-! ## Code words -/

/-- The meaning of every Huffman code word is the acceptance of its table row. -/
theorem exec_code {i : Instr} {e : Entry} (h : codeEntry i = some e) (s : State) : exec i s = acceptCode e s := by
  cases i <;> first | (cases h; rfl) | cases h

/-- What a code word can do where it can be read. -/
theorem acceptCode_read {s : State} {d : HufDec} {mode : HufMode} {first : Bool} {e : Entry}
    (ha : s.active = some (.hufDec mode (.code first))) (hd : s.hufDec = some d) (he : e.cls.inSet d.color = true) :
    acceptCode e s = settleHuf s (HufRun.accept ⟨d, mode, .code first⟩ first e) := by
  simp [acceptCode, ha, hd, he]

/-! ## The LZW operations end -/

theorem LzwEnc.run_ends (p : Params) (input : List Byte) :
    (∃ e, LzwEnc.run p input = .raised e) ∨
      ∃ d, LzwEnc.advance p d = LzwEnc.run p input ∧ ∀ d', LzwEnc.advance p d ≠ .more d' := by
  unfold LzwEnc.run
  cases h : LzwEnc.start p input with
  | error e => exact .inl ⟨e, rfl⟩
  | ok c =>
    obtain ⟨bw, -, rfl⟩ := LzwEnc.emitCode_ok h
    dsimp only
    obtain ⟨d, -, h₁, h₂⟩ := runLoop_ends (turn := LzwEnc.advance p) (fun _ => True) (fun c => c.input.length - c.i)
      (fun c c' _ h => by
        obtain ⟨h₁, h₂, h₃⟩ := LzwEnc.advance_more h
        exact ⟨trivial, by rw [h₃]; omega⟩)
      (input.length + 1) ⟨bw, [], firstFree, lzwInitialBits, none, input, 0⟩ trivial (by simp)
    exact .inr ⟨d, h₁, h₂⟩

theorem le_widen (next width : Nat) : width ≤ widen next width := by
  unfold widen; split <;> omega

/-- R184: only a clear makes the width smaller, and then it is 9. -/
theorem LzwDec.emitString_width {p : Params} {c c' : LzwDec} {k : Nat} {s : List Byte}
    (h : c.emitString p k s = .more c') : c.width ≤ c'.width := by
  unfold LzwDec.emitString at h
  obtain ⟨x, -, hk⟩ := Progress.ofExcept_more h
  dsimp only at hk
  split at hk
  · cases hk
  · cases hk
    unfold LzwDec.grow
    split
    · exact Nat.le_refl _
    · dsimp only; split <;> exact le_widen _ _

theorem LzwDec.accept_width {p : Params} {c c' : LzwDec} {t : LzwTok} (hw : 9 ≤ c.width) (h : c.accept p t = .more c') :
    9 ≤ c'.width := by
  cases t with
  | literal b => exact hw.trans (LzwDec.emitString_width h)
  | clear => cases h; exact Nat.le_refl _
  | stop => simp only [LzwDec.accept, LzwDec.finish] at h; split at h <;> cases h
  | string k =>
    simp only [LzwDec.accept, LzwDec.known] at h
    split at h
    · exact hw.trans (LzwDec.emitString_width h)
    · cases h
  | next =>
    simp only [LzwDec.accept, LzwDec.special] at h
    split at h
    · exact hw.trans (LzwDec.emitString_width h)
    · cases h
  | illegal k => cases h

theorem LzwDec.advance_width {p : Params} {c c' : LzwDec} (hw : 9 ≤ c.width) (h : c.advance p = .more c') :
    9 ≤ c'.width := by
  unfold LzwDec.advance LzwDec.turn at h
  split at h
  · rw [Turn.take_token] at h
    refine LzwDec.accept_width ?_ h
    exact hw
  · cases h

theorem LzwDec.run_ends (p : Params) (input : List Byte) (expected : Nat) :
    ∃ d, LzwDec.advance p d = LzwDec.run p input expected ∧ ∀ d', LzwDec.advance p d ≠ .more d' := by
  obtain ⟨d, -, h₁, h₂⟩ := runLoop_ends (turn := LzwDec.advance p) (fun c => 9 ≤ c.width) (fun c => c.br.remaining)
    (fun c c' hw h => by
      obtain ⟨hle, hbr⟩ := LzwDec.advance_more h
      refine ⟨LzwDec.advance_width hw h, ?_⟩
      rw [hbr]
      simp only [BitReader.remaining] at hle ⊢
      omega)
    (8 * input.length + 1) (LzwDec.fresh input expected) (Nat.le_refl _)
    (by simp [LzwDec.fresh, BitReader.fresh, BitReader.remaining])
  exact ⟨d, h₁, h₂⟩

end Sys2Proof.Machine
end

