-- ==== Sys2Proof/Laws/Exec.lean ====
section
/-! SUPPORT. What executing any operation can do, said once for all of them: each is `operation` of its session over a body of
its own, so it is refused while another is in progress, ends by a drawn allocation failure, or runs its body. -/

namespace Sys2Proof.Machine

/-- Every operation of R71 is the shared opening of its session over its own effect. -/
theorem exec_operation {i : Instr} (h : isOperation i = true) :
    ∃ body : State → Answer, ∀ s, exec i s = operation (sessionOf i) s body := by
  cases i <;> first
    | (simp only [isOperation, encodeCommand, Option.isSome_none, reduceCtorEq] at h; done)
    | (apply Exists.intro
       intro s
       simp only [exec, execRmSet, execRmGet, execBwInit, execBwWrite, execBwFlush, execBrInit, execBrRead, execHufEncBegin,
         execHufEncLine, execHufEncEnd, execHufDecBegin, execHufDecLine, execHufDecPage, execLzwEnc, execLzwDec, execSbPack,
         execSbUnpack, execPbEnc, execPbDec, execCvEnc, execCvDec, execA85EncByte, execA85EncEnd, execA85Dec]
       rfl)

/-- A command is an operation of R71 or a reserved opcode. -/
theorem isOperation_or_reserved {i : Instr} (h : (encodeCommand i).isSome = true) :
    isOperation i = true ∨ ∃ b, i = .reservedOpcode b := by
  cases i <;> first | exact .inl rfl | exact .inr ⟨_, rfl⟩ | simp [encodeCommand] at h

/-- R320: a command issued while an operation is in progress. -/
theorem exec_command_busy {i : Instr} {s : State} {a : Active} (h : (encodeCommand i).isSome = true)
    (ha : s.active = some a) : exec i s = .refused .contextBusy := by
  obtain h | ⟨b, rfl⟩ := isOperation_or_reserved h
  · obtain ⟨body, hb⟩ := exec_operation h
    rw [hb, operation_busy ha]
  · simp [exec, execReservedOpcode, ha]

/-- R282: an operation whose draw fails, the draw of `s.answered` being the one used up. -/
theorem operation_allocFails_answered {s : State} (ha : s.active = none) (hf : s.allocFails = true) (u : Session)
    (body : State → Answer) :
    operation u s body = .next ((s.close u).answered u .allocationFailure .nothing) := by
  rw [operation_allocFails ha hf, State.raise_of_ne _ _ _ (by decide)]
  cases u <;> simp [State.close, State.popDraw, State.answered, State.finish, ErrorKind.status, ha]

/-- The instruction an opcode builds from operand values belongs to the session of the opcode (R71). -/
theorem buildInstr_session {op : Opcode} {args : List Operand} {i : Instr} (h : buildInstr op args = some i) :
    sessionOf i = opcodeSession op := by
  unfold buildInstr at h
  split at h <;> first | (cases h; rfl) | (split at h <;> first | (cases h; rfl) | cases h) | cases h

/-- R72: what an operation with operand values that make no instruction comes to. -/
theorem refuseOperands_ready {opcode : Byte} {s : State} (h : s.ready = true) :
    refuseOperands opcode s = .next (s.answered (sessionOfOpcode opcode) .invalidOperand .nothing) := by
  obtain ⟨ha, -⟩ := (s.ready_iff).1 h
  rw [refuseOperands, operation_ready h, State.raise_invalidOperand]
  simp [State.popDraw, State.answered, State.finish, ha]

end Sys2Proof.Machine
end

