-- ==== Sys2Proof/Laws/PerInstr.lean ====
section
/-! SUPPORT. The family RoundTrip: for every constructor of `Instr`, the decoder reads the encoder's word of a well-formed
instruction back. -/

namespace Sys2Proof.Laws.RoundTrip

open Sys2Proof Sys2Proof.Machine

/-- What is said of one instruction. -/
def Statement (i : Instr) : Prop := ∀ p : Params, WellFormed p i = true → decode (encode i) = .ok i

theorem rmSet (sample : PixelSample) (count : Nat) : Statement (.rmSet sample count) := fun _ _ => rfl
theorem rmGet : Statement (.rmGet) := fun _ _ => rfl
theorem bwInit (order : Nat) : Statement (.bwInit order) := fun _ _ => rfl
theorem bwWrite (value : Word16) (width : Nat) : Statement (.bwWrite value width) := fun _ _ => roundTrip_of_build rfl rfl (buildInstr_bwWrite value width)
theorem bwFlush : Statement (.bwFlush) := fun _ _ => rfl
theorem brInit (order : Nat) (input : List Byte) : Statement (.brInit order input) := fun _ _ => rfl
theorem brRead (width : Nat) : Statement (.brRead width) := fun _ _ => rfl
theorem hufEncBegin (columns : Nat) : Statement (.hufEncBegin columns) := fun _ _ => rfl
theorem hufEncLine (line : Line) : Statement (.hufEncLine line) := fun _ _ => rfl
theorem hufEncEnd : Statement (.hufEncEnd) := fun _ _ => rfl
theorem hufDecBegin (input : List Byte) (columns : Nat) : Statement (.hufDecBegin input columns) := fun _ _ => rfl
theorem hufDecLine : Statement (.hufDecLine) := fun _ _ => rfl
theorem hufDecPage (rows : Nat) : Statement (.hufDecPage rows) := fun _ _ => rfl
theorem lzwEnc (input : List Byte) : Statement (.lzwEnc input) := fun _ _ => rfl
theorem lzwDec (input : List Byte) (expected : Nat) : Statement (.lzwDec input expected) := fun _ _ => rfl
theorem sbPack (input : List Byte) : Statement (.sbPack input) := fun _ _ => rfl
theorem sbUnpack (input : List Byte) : Statement (.sbUnpack input) := fun _ _ => rfl
theorem pbEnc (input : List Byte) : Statement (.pbEnc input) := fun _ _ => rfl
theorem pbDec (input : List Byte) (total : Nat) : Statement (.pbDec input total) := fun _ _ => rfl
theorem cvEnc (runs : List CvRun) (total : Nat) : Statement (.cvEnc runs total) := fun _ _ => rfl
theorem cvDec (input : List Byte) (total : Nat) : Statement (.cvDec input total) := fun _ _ => rfl
theorem a85EncByte (b : Byte) : Statement (.a85EncByte b) := fun _ _ => roundTrip_of_build rfl rfl (buildInstr_a85EncByte b)
theorem a85EncEnd : Statement (.a85EncEnd) := fun _ _ => rfl
theorem a85Dec (input : List Byte) : Statement (.a85Dec input) := fun _ _ => rfl
theorem reservedOpcode (opcode : Byte) : Statement (.reservedOpcode opcode) := fun _ h => decode_reserved h
theorem lzwLiteral (c : Byte) : Statement (.lzwLiteral c) := fun _ _ => decode_lzwLiteral c
theorem lzwClear : Statement (.lzwClear) := fun _ _ => rfl
theorem lzwEnd : Statement (.lzwEnd) := fun _ _ => rfl
theorem lzwString (k : Nat) : Statement (.lzwString k) := fun _ h => decode_lzwString h
theorem lzwNext : Statement (.lzwNext) := fun _ _ => rfl
theorem lzwIllegal (k : Nat) : Statement (.lzwIllegal k) := fun _ h => decode_lzwIllegal h
theorem sbLength (len : Byte) : Statement (.sbLength len) := fun _ h => decode_sbLength h
theorem sbTerminator : Statement (.sbTerminator) := fun _ _ => rfl
theorem pbLiteral (n : BitVec 7) : Statement (.pbLiteral n) := fun _ _ => decode_pbLiteral n
theorem pbIllegal80 : Statement (.pbIllegal80) := fun _ _ => rfl
theorem pbRepeat (h : BitVec 7) : Statement (.pbRepeat h) := fun _ h => decode_pbRepeat h
theorem cvPacket (value : List Byte) (k : Byte) : Statement (.cvPacket value k) := fun _ _ => decode_cvPacket value k
theorem a85Digit (d : Nat) : Statement (.a85Digit d) := fun _ h => decode_a85Digit h
theorem a85Zero : Statement (.a85Zero) := fun _ _ => rfl
theorem a85End : Statement (.a85End) := fun _ _ => rfl
theorem a85Linebreak : Statement (.a85Linebreak) := fun _ _ => rfl
theorem a85Whitespace (b : Byte) : Statement (.a85Whitespace b) := fun _ h => decode_a85Whitespace h
theorem a85Illegal (b : Byte) : Statement (.a85Illegal b) := fun _ h => decode_a85Illegal h

/-! The Huffman code words, each by its row of the tables. -/

theorem wTerm0 : Statement .wTerm0 := fun _ _ => rfl
theorem wTerm1 : Statement .wTerm1 := fun _ _ => rfl
theorem wTerm2 : Statement .wTerm2 := fun _ _ => rfl
theorem wTerm3 : Statement .wTerm3 := fun _ _ => rfl
theorem wTerm4 : Statement .wTerm4 := fun _ _ => rfl
theorem wTerm5 : Statement .wTerm5 := fun _ _ => rfl
theorem wTerm6 : Statement .wTerm6 := fun _ _ => rfl
theorem wTerm7 : Statement .wTerm7 := fun _ _ => rfl
theorem wTerm8 : Statement .wTerm8 := fun _ _ => rfl
theorem wTerm9 : Statement .wTerm9 := fun _ _ => rfl
theorem wTerm10 : Statement .wTerm10 := fun _ _ => rfl
theorem wTerm11 : Statement .wTerm11 := fun _ _ => rfl
theorem wTerm12 : Statement .wTerm12 := fun _ _ => rfl
theorem wTerm13 : Statement .wTerm13 := fun _ _ => rfl
theorem wTerm14 : Statement .wTerm14 := fun _ _ => rfl
theorem wTerm15 : Statement .wTerm15 := fun _ _ => rfl
theorem wTerm16 : Statement .wTerm16 := fun _ _ => rfl
theorem wTerm17 : Statement .wTerm17 := fun _ _ => rfl
theorem wTerm18 : Statement .wTerm18 := fun _ _ => rfl
theorem wTerm19 : Statement .wTerm19 := fun _ _ => rfl
theorem wTerm20 : Statement .wTerm20 := fun _ _ => rfl
theorem wTerm21 : Statement .wTerm21 := fun _ _ => rfl
theorem wTerm22 : Statement .wTerm22 := fun _ _ => rfl
theorem wTerm23 : Statement .wTerm23 := fun _ _ => rfl
theorem wTerm24 : Statement .wTerm24 := fun _ _ => rfl
theorem wTerm25 : Statement .wTerm25 := fun _ _ => rfl
theorem wTerm26 : Statement .wTerm26 := fun _ _ => rfl
theorem wTerm27 : Statement .wTerm27 := fun _ _ => rfl
theorem wTerm28 : Statement .wTerm28 := fun _ _ => rfl
theorem wTerm29 : Statement .wTerm29 := fun _ _ => rfl
theorem wTerm30 : Statement .wTerm30 := fun _ _ => rfl
theorem wTerm31 : Statement .wTerm31 := fun _ _ => rfl
theorem wTerm32 : Statement .wTerm32 := fun _ _ => rfl
theorem wTerm33 : Statement .wTerm33 := fun _ _ => rfl
theorem wTerm34 : Statement .wTerm34 := fun _ _ => rfl
theorem wTerm35 : Statement .wTerm35 := fun _ _ => rfl
theorem wTerm36 : Statement .wTerm36 := fun _ _ => rfl
theorem wTerm37 : Statement .wTerm37 := fun _ _ => rfl
theorem wTerm38 : Statement .wTerm38 := fun _ _ => rfl
theorem wTerm39 : Statement .wTerm39 := fun _ _ => rfl
theorem wTerm40 : Statement .wTerm40 := fun _ _ => rfl
theorem wTerm41 : Statement .wTerm41 := fun _ _ => rfl
theorem wTerm42 : Statement .wTerm42 := fun _ _ => rfl
theorem wTerm43 : Statement .wTerm43 := fun _ _ => rfl
theorem wTerm44 : Statement .wTerm44 := fun _ _ => rfl
theorem wTerm45 : Statement .wTerm45 := fun _ _ => rfl
theorem wTerm46 : Statement .wTerm46 := fun _ _ => rfl
theorem wTerm47 : Statement .wTerm47 := fun _ _ => rfl
theorem wTerm48 : Statement .wTerm48 := fun _ _ => rfl
theorem wTerm49 : Statement .wTerm49 := fun _ _ => rfl
theorem wTerm50 : Statement .wTerm50 := fun _ _ => rfl
theorem wTerm51 : Statement .wTerm51 := fun _ _ => rfl
theorem wTerm52 : Statement .wTerm52 := fun _ _ => rfl
theorem wTerm53 : Statement .wTerm53 := fun _ _ => rfl
theorem wTerm54 : Statement .wTerm54 := fun _ _ => rfl
theorem wTerm55 : Statement .wTerm55 := fun _ _ => rfl
theorem wTerm56 : Statement .wTerm56 := fun _ _ => rfl
theorem wTerm57 : Statement .wTerm57 := fun _ _ => rfl
theorem wTerm58 : Statement .wTerm58 := fun _ _ => rfl
theorem wTerm59 : Statement .wTerm59 := fun _ _ => rfl
theorem wTerm60 : Statement .wTerm60 := fun _ _ => rfl
theorem wTerm61 : Statement .wTerm61 := fun _ _ => rfl
theorem wTerm62 : Statement .wTerm62 := fun _ _ => rfl
theorem wTerm63 : Statement .wTerm63 := fun _ _ => rfl
theorem wMakeup64 : Statement .wMakeup64 := fun _ _ => rfl
theorem wMakeup128 : Statement .wMakeup128 := fun _ _ => rfl
theorem wMakeup192 : Statement .wMakeup192 := fun _ _ => rfl
theorem wMakeup256 : Statement .wMakeup256 := fun _ _ => rfl
theorem wMakeup320 : Statement .wMakeup320 := fun _ _ => rfl
theorem wMakeup384 : Statement .wMakeup384 := fun _ _ => rfl
theorem wMakeup448 : Statement .wMakeup448 := fun _ _ => rfl
theorem wMakeup512 : Statement .wMakeup512 := fun _ _ => rfl
theorem wMakeup576 : Statement .wMakeup576 := fun _ _ => rfl
theorem wMakeup640 : Statement .wMakeup640 := fun _ _ => rfl
theorem wMakeup704 : Statement .wMakeup704 := fun _ _ => rfl
theorem wMakeup768 : Statement .wMakeup768 := fun _ _ => rfl
theorem wMakeup832 : Statement .wMakeup832 := fun _ _ => rfl
theorem wMakeup896 : Statement .wMakeup896 := fun _ _ => rfl
theorem wMakeup960 : Statement .wMakeup960 := fun _ _ => rfl
theorem wMakeup1024 : Statement .wMakeup1024 := fun _ _ => rfl
theorem wMakeup1088 : Statement .wMakeup1088 := fun _ _ => rfl
theorem wMakeup1152 : Statement .wMakeup1152 := fun _ _ => rfl
theorem wMakeup1216 : Statement .wMakeup1216 := fun _ _ => rfl
theorem wMakeup1280 : Statement .wMakeup1280 := fun _ _ => rfl
theorem wMakeup1344 : Statement .wMakeup1344 := fun _ _ => rfl
theorem wMakeup1408 : Statement .wMakeup1408 := fun _ _ => rfl
theorem wMakeup1472 : Statement .wMakeup1472 := fun _ _ => rfl
theorem wMakeup1536 : Statement .wMakeup1536 := fun _ _ => rfl
theorem wMakeup1600 : Statement .wMakeup1600 := fun _ _ => rfl
theorem wMakeup1664 : Statement .wMakeup1664 := fun _ _ => rfl
theorem wMakeup1728 : Statement .wMakeup1728 := fun _ _ => rfl
theorem extMakeup1792 : Statement .extMakeup1792 := fun _ _ => rfl
theorem extMakeup1856 : Statement .extMakeup1856 := fun _ _ => rfl
theorem extMakeup1920 : Statement .extMakeup1920 := fun _ _ => rfl
theorem extMakeup1984 : Statement .extMakeup1984 := fun _ _ => rfl
theorem extMakeup2048 : Statement .extMakeup2048 := fun _ _ => rfl
theorem extMakeup2112 : Statement .extMakeup2112 := fun _ _ => rfl
theorem extMakeup2176 : Statement .extMakeup2176 := fun _ _ => rfl
theorem extMakeup2240 : Statement .extMakeup2240 := fun _ _ => rfl
theorem extMakeup2304 : Statement .extMakeup2304 := fun _ _ => rfl
theorem extMakeup2368 : Statement .extMakeup2368 := fun _ _ => rfl
theorem extMakeup2432 : Statement .extMakeup2432 := fun _ _ => rfl
theorem extMakeup2496 : Statement .extMakeup2496 := fun _ _ => rfl
theorem extMakeup2560 : Statement .extMakeup2560 := fun _ _ => rfl
theorem eol : Statement .eol := fun _ _ => rfl
theorem bTerm0 : Statement .bTerm0 := fun _ _ => rfl
theorem bTerm1 : Statement .bTerm1 := fun _ _ => rfl
theorem bTerm2 : Statement .bTerm2 := fun _ _ => rfl
theorem bTerm3 : Statement .bTerm3 := fun _ _ => rfl
theorem bTerm4 : Statement .bTerm4 := fun _ _ => rfl
theorem bTerm5 : Statement .bTerm5 := fun _ _ => rfl
theorem bTerm6 : Statement .bTerm6 := fun _ _ => rfl
theorem bTerm7 : Statement .bTerm7 := fun _ _ => rfl
theorem bTerm8 : Statement .bTerm8 := fun _ _ => rfl
theorem bTerm9 : Statement .bTerm9 := fun _ _ => rfl
theorem bTerm10 : Statement .bTerm10 := fun _ _ => rfl
theorem bTerm11 : Statement .bTerm11 := fun _ _ => rfl
theorem bTerm12 : Statement .bTerm12 := fun _ _ => rfl
theorem bTerm13 : Statement .bTerm13 := fun _ _ => rfl
theorem bTerm14 : Statement .bTerm14 := fun _ _ => rfl
theorem bTerm15 : Statement .bTerm15 := fun _ _ => rfl
theorem bTerm16 : Statement .bTerm16 := fun _ _ => rfl
theorem bTerm17 : Statement .bTerm17 := fun _ _ => rfl
theorem bTerm18 : Statement .bTerm18 := fun _ _ => rfl
theorem bTerm19 : Statement .bTerm19 := fun _ _ => rfl
theorem bTerm20 : Statement .bTerm20 := fun _ _ => rfl
theorem bTerm21 : Statement .bTerm21 := fun _ _ => rfl
theorem bTerm22 : Statement .bTerm22 := fun _ _ => rfl
theorem bTerm23 : Statement .bTerm23 := fun _ _ => rfl
theorem bTerm24 : Statement .bTerm24 := fun _ _ => rfl
theorem bTerm25 : Statement .bTerm25 := fun _ _ => rfl
theorem bTerm26 : Statement .bTerm26 := fun _ _ => rfl
theorem bTerm27 : Statement .bTerm27 := fun _ _ => rfl
theorem bTerm28 : Statement .bTerm28 := fun _ _ => rfl
theorem bTerm29 : Statement .bTerm29 := fun _ _ => rfl
theorem bTerm30 : Statement .bTerm30 := fun _ _ => rfl
theorem bTerm31 : Statement .bTerm31 := fun _ _ => rfl
theorem bTerm32 : Statement .bTerm32 := fun _ _ => rfl
theorem bTerm33 : Statement .bTerm33 := fun _ _ => rfl
theorem bTerm34 : Statement .bTerm34 := fun _ _ => rfl
theorem bTerm35 : Statement .bTerm35 := fun _ _ => rfl
theorem bTerm36 : Statement .bTerm36 := fun _ _ => rfl
theorem bTerm37 : Statement .bTerm37 := fun _ _ => rfl
theorem bTerm38 : Statement .bTerm38 := fun _ _ => rfl
theorem bTerm39 : Statement .bTerm39 := fun _ _ => rfl
theorem bTerm40 : Statement .bTerm40 := fun _ _ => rfl
theorem bTerm41 : Statement .bTerm41 := fun _ _ => rfl
theorem bTerm42 : Statement .bTerm42 := fun _ _ => rfl
theorem bTerm43 : Statement .bTerm43 := fun _ _ => rfl
theorem bTerm44 : Statement .bTerm44 := fun _ _ => rfl
theorem bTerm45 : Statement .bTerm45 := fun _ _ => rfl
theorem bTerm46 : Statement .bTerm46 := fun _ _ => rfl
theorem bTerm47 : Statement .bTerm47 := fun _ _ => rfl
theorem bTerm48 : Statement .bTerm48 := fun _ _ => rfl
theorem bTerm49 : Statement .bTerm49 := fun _ _ => rfl
theorem bTerm50 : Statement .bTerm50 := fun _ _ => rfl
theorem bTerm51 : Statement .bTerm51 := fun _ _ => rfl
theorem bTerm52 : Statement .bTerm52 := fun _ _ => rfl
theorem bTerm53 : Statement .bTerm53 := fun _ _ => rfl
theorem bTerm54 : Statement .bTerm54 := fun _ _ => rfl
theorem bTerm55 : Statement .bTerm55 := fun _ _ => rfl
theorem bTerm56 : Statement .bTerm56 := fun _ _ => rfl
theorem bTerm57 : Statement .bTerm57 := fun _ _ => rfl
theorem bTerm58 : Statement .bTerm58 := fun _ _ => rfl
theorem bTerm59 : Statement .bTerm59 := fun _ _ => rfl
theorem bTerm60 : Statement .bTerm60 := fun _ _ => rfl
theorem bTerm61 : Statement .bTerm61 := fun _ _ => rfl
theorem bTerm62 : Statement .bTerm62 := fun _ _ => rfl
theorem bTerm63 : Statement .bTerm63 := fun _ _ => rfl
theorem bMakeup64 : Statement .bMakeup64 := fun _ _ => rfl
theorem bMakeup128 : Statement .bMakeup128 := fun _ _ => rfl
theorem bMakeup192 : Statement .bMakeup192 := fun _ _ => rfl
theorem bMakeup256 : Statement .bMakeup256 := fun _ _ => rfl
theorem bMakeup320 : Statement .bMakeup320 := fun _ _ => rfl
theorem bMakeup384 : Statement .bMakeup384 := fun _ _ => rfl
theorem bMakeup448 : Statement .bMakeup448 := fun _ _ => rfl
theorem bMakeup512 : Statement .bMakeup512 := fun _ _ => rfl
theorem bMakeup576 : Statement .bMakeup576 := fun _ _ => rfl
theorem bMakeup640 : Statement .bMakeup640 := fun _ _ => rfl
theorem bMakeup704 : Statement .bMakeup704 := fun _ _ => rfl
theorem bMakeup768 : Statement .bMakeup768 := fun _ _ => rfl
theorem bMakeup832 : Statement .bMakeup832 := fun _ _ => rfl
theorem bMakeup896 : Statement .bMakeup896 := fun _ _ => rfl
theorem bMakeup960 : Statement .bMakeup960 := fun _ _ => rfl
theorem bMakeup1024 : Statement .bMakeup1024 := fun _ _ => rfl
theorem bMakeup1088 : Statement .bMakeup1088 := fun _ _ => rfl
theorem bMakeup1152 : Statement .bMakeup1152 := fun _ _ => rfl
theorem bMakeup1216 : Statement .bMakeup1216 := fun _ _ => rfl
theorem bMakeup1280 : Statement .bMakeup1280 := fun _ _ => rfl
theorem bMakeup1344 : Statement .bMakeup1344 := fun _ _ => rfl
theorem bMakeup1408 : Statement .bMakeup1408 := fun _ _ => rfl
theorem bMakeup1472 : Statement .bMakeup1472 := fun _ _ => rfl
theorem bMakeup1536 : Statement .bMakeup1536 := fun _ _ => rfl
theorem bMakeup1600 : Statement .bMakeup1600 := fun _ _ => rfl
theorem bMakeup1664 : Statement .bMakeup1664 := fun _ _ => rfl
theorem bMakeup1728 : Statement .bMakeup1728 := fun _ _ => rfl

end Sys2Proof.Laws.RoundTrip
end

