-- ==== Sys2Proof/Tests/Slice0.lean ====
section
/-! SUPPORT. Tests. Expected values come from spec/: the code-word column of the tables R80 to R85, the vectors of
95_test_vectors.md (named in the comments: B Bit I/O, M run model, H and HD Huffman, Z LZW, P PackBits, V count/value, A
Ascii85) and the examples of the rules. The last part has, for every statement of Certificates/Slice0/Obligations.lean with
hypotheses, a concrete state and operands that meet them, for each clause. -/

namespace Sys2Proof.Tests

open Sys2Proof Sys2Proof.Machine

/-! ## Helpers -/

/-- The next state, if that is the answer. -/
def nextOf : Answer → Option State
  | .next t => some t
  | _ => none

/-- The result of an instruction. -/
def resultOf (a : Answer) : Option Result := (nextOf a).map fun t => t.result

/-- The status an instruction leaves in its session. -/
def statusOf (i : Instr) (s : State) : Option Status := (nextOf (exec i s)).bind fun t => t.status.get (sessionOf i)

/-- The refusal of an instruction. -/
def refusalOf : Answer → Option Refusal
  | .refused r => some r
  | _ => none

/-- A state between operations with room for 100 bytes. -/
def idle : State := { State.reset with params := ⟨1, 100⟩ }

/-- The same with room for fewer bytes. -/
def narrow (cap : Nat) : State := { State.reset with params := ⟨1, cap⟩ }

/-- A state inside an operation. -/
def inside (a : Active) : State := { idle with active := some a }

/-- A writer with three bits placed after one whole byte. -/
def writing (cap : Nat) : State := { narrow cap with bw := some ⟨.msb, 0xA0, 3, [0x35]⟩ }

/-- A row of white pixels. -/
def whites (n : Nat) : List Polarity := List.replicate n .white

/-- The decoder of a Huffman stream. -/
def decoderOn (columns : Nat) (input : List Byte) : State := { idle with hufDec := some (HufDec.fresh input columns) }

/-! ## Well-formedness: each check refuses a term that is ill formed in its operand -/

theorem test_wf_rmSet_zero : WellFormed ⟨1, 100⟩ (.rmSet (.index 7) 0) = false := by decide
theorem test_wf_rmSet_above : WellFormed ⟨1, 100⟩ (.rmSet (.index 7) 65537) = false := by decide
theorem test_wf_bwInit : WellFormed ⟨1, 100⟩ (.bwInit 2) = false := by decide
theorem test_wf_bwWrite : WellFormed ⟨1, 100⟩ (.bwWrite 1 17) = false := by decide
theorem test_wf_brInit : WellFormed ⟨1, 100⟩ (.brInit 2 []) = false := by decide
theorem test_wf_brRead : WellFormed ⟨1, 100⟩ (.brRead 17) = false := by decide
theorem test_wf_hufEncBegin : WellFormed ⟨1, 100⟩ (.hufEncBegin 0) = false := by decide
theorem test_wf_hufEncLine : WellFormed ⟨1, 100⟩ (.hufEncLine (.runs [(.white, 0)])) = false := by decide
theorem test_wf_hufDecBegin : WellFormed ⟨1, 100⟩ (.hufDecBegin [] 65537) = false := by decide
theorem test_wf_cvEnc_sample : WellFormed ⟨1, 100⟩ (.cvEnc [⟨[1, 2], 3⟩] 3) = false := by decide
theorem test_wf_cvEnc_count : WellFormed ⟨1, 100⟩ (.cvEnc [⟨[1], 0⟩] 0) = false := by decide
theorem test_wf_reserved : WellFormed ⟨1, 100⟩ (.reservedOpcode 0x52) = false := by decide
theorem test_wf_lzwString : WellFormed ⟨1, 100⟩ (.lzwString 257) = false := by decide
theorem test_wf_lzwIllegal : WellFormed ⟨1, 100⟩ (.lzwIllegal 4096) = false := by decide
theorem test_wf_sbLength : WellFormed ⟨1, 100⟩ (.sbLength 0) = false := by decide
theorem test_wf_pbRepeat : WellFormed ⟨1, 100⟩ (.pbRepeat 0) = false := by decide
theorem test_wf_cvPacket : WellFormed ⟨2, 100⟩ (.cvPacket [5] 2) = false := by decide
theorem test_wf_a85Digit : WellFormed ⟨1, 100⟩ (.a85Digit 85) = false := by decide
theorem test_wf_a85Whitespace : WellFormed ⟨1, 100⟩ (.a85Whitespace 0x0A) = false := by decide
theorem test_wf_a85Illegal : WellFormed ⟨1, 100⟩ (.a85Illegal 0x21) = false := by decide

/-! ## Decoding: words written out from the spec -/

/-- The code words of R80 as its column "code word" writes them, with their lengths. -/
def whiteTermWords : List (Nat × Nat × Instr) :=
  ([(8, 0b00110101, .wTerm0), (6, 0b000111, .wTerm1), (4, 0b0111, .wTerm2),
    (4, 0b1000, .wTerm3), (4, 0b1011, .wTerm4), (4, 0b1100, .wTerm5),
    (4, 0b1110, .wTerm6), (4, 0b1111, .wTerm7)] : List (Nat × Nat × Instr)) ++
  ([(5, 0b10011, .wTerm8), (5, 0b10100, .wTerm9), (5, 0b00111, .wTerm10),
    (5, 0b01000, .wTerm11), (6, 0b001000, .wTerm12), (6, 0b000011, .wTerm13),
    (6, 0b110100, .wTerm14), (6, 0b110101, .wTerm15)] : List (Nat × Nat × Instr)) ++
  ([(6, 0b101010, .wTerm16), (6, 0b101011, .wTerm17), (7, 0b0100111, .wTerm18),
    (7, 0b0001100, .wTerm19), (7, 0b0001000, .wTerm20), (7, 0b0010111, .wTerm21),
    (7, 0b0000011, .wTerm22), (7, 0b0000100, .wTerm23)] : List (Nat × Nat × Instr)) ++
  ([(7, 0b0101000, .wTerm24), (7, 0b0101011, .wTerm25), (7, 0b0010011, .wTerm26),
    (7, 0b0100100, .wTerm27), (7, 0b0011000, .wTerm28), (8, 0b00000010, .wTerm29),
    (8, 0b00000011, .wTerm30), (8, 0b00011010, .wTerm31)] : List (Nat × Nat × Instr)) ++
  ([(8, 0b00011011, .wTerm32), (8, 0b00010010, .wTerm33), (8, 0b00010011, .wTerm34),
    (8, 0b00010100, .wTerm35), (8, 0b00010101, .wTerm36), (8, 0b00010110, .wTerm37),
    (8, 0b00010111, .wTerm38), (8, 0b00101000, .wTerm39)] : List (Nat × Nat × Instr)) ++
  ([(8, 0b00101001, .wTerm40), (8, 0b00101010, .wTerm41), (8, 0b00101011, .wTerm42),
    (8, 0b00101100, .wTerm43), (8, 0b00101101, .wTerm44), (8, 0b00000100, .wTerm45),
    (8, 0b00000101, .wTerm46), (8, 0b00001010, .wTerm47)] : List (Nat × Nat × Instr)) ++
  ([(8, 0b00001011, .wTerm48), (8, 0b01010010, .wTerm49), (8, 0b01010011, .wTerm50),
    (8, 0b01010100, .wTerm51), (8, 0b01010101, .wTerm52), (8, 0b00100100, .wTerm53),
    (8, 0b00100101, .wTerm54), (8, 0b01011000, .wTerm55)] : List (Nat × Nat × Instr)) ++
  ([(8, 0b01011001, .wTerm56), (8, 0b01011010, .wTerm57), (8, 0b01011011, .wTerm58),
    (8, 0b01001010, .wTerm59), (8, 0b01001011, .wTerm60), (8, 0b00110010, .wTerm61),
    (8, 0b00110011, .wTerm62), (8, 0b00110100, .wTerm63)] : List (Nat × Nat × Instr))

/-- The code words of R81. -/
def blackTermWords : List (Nat × Nat × Instr) :=
  ([(10, 0b0000110111, .bTerm0), (3, 0b010, .bTerm1), (2, 0b11, .bTerm2),
    (2, 0b10, .bTerm3), (3, 0b011, .bTerm4), (4, 0b0011, .bTerm5),
    (4, 0b0010, .bTerm6), (5, 0b00011, .bTerm7)] : List (Nat × Nat × Instr)) ++
  ([(6, 0b000101, .bTerm8), (6, 0b000100, .bTerm9), (7, 0b0000100, .bTerm10),
    (7, 0b0000101, .bTerm11), (7, 0b0000111, .bTerm12), (8, 0b00000100, .bTerm13),
    (8, 0b00000111, .bTerm14), (9, 0b000011000, .bTerm15)] : List (Nat × Nat × Instr)) ++
  ([(10, 0b0000010111, .bTerm16), (10, 0b0000011000, .bTerm17), (10, 0b0000001000, .bTerm18),
    (11, 0b00001100111, .bTerm19), (11, 0b00001101000, .bTerm20), (11, 0b00001101100, .bTerm21),
    (11, 0b00000110111, .bTerm22), (11, 0b00000101000, .bTerm23)] : List (Nat × Nat × Instr)) ++
  ([(11, 0b00000010111, .bTerm24), (11, 0b00000011000, .bTerm25), (12, 0b000011001010, .bTerm26),
    (12, 0b000011001011, .bTerm27), (12, 0b000011001100, .bTerm28), (12, 0b000011001101, .bTerm29),
    (12, 0b000001101000, .bTerm30), (12, 0b000001101001, .bTerm31)] : List (Nat × Nat × Instr)) ++
  ([(12, 0b000001101010, .bTerm32), (12, 0b000001101011, .bTerm33), (12, 0b000011010010, .bTerm34),
    (12, 0b000011010011, .bTerm35), (12, 0b000011010100, .bTerm36), (12, 0b000011010101, .bTerm37),
    (12, 0b000011010110, .bTerm38), (12, 0b000011010111, .bTerm39)] : List (Nat × Nat × Instr)) ++
  ([(12, 0b000001101100, .bTerm40), (12, 0b000001101101, .bTerm41), (12, 0b000011011010, .bTerm42),
    (12, 0b000011011011, .bTerm43), (12, 0b000001010100, .bTerm44), (12, 0b000001010101, .bTerm45),
    (12, 0b000001010110, .bTerm46), (12, 0b000001010111, .bTerm47)] : List (Nat × Nat × Instr)) ++
  ([(12, 0b000001100100, .bTerm48), (12, 0b000001100101, .bTerm49), (12, 0b000001010010, .bTerm50),
    (12, 0b000001010011, .bTerm51), (12, 0b000000100100, .bTerm52), (12, 0b000000110111, .bTerm53),
    (12, 0b000000111000, .bTerm54), (12, 0b000000100111, .bTerm55)] : List (Nat × Nat × Instr)) ++
  ([(12, 0b000000101000, .bTerm56), (12, 0b000001011000, .bTerm57), (12, 0b000001011001, .bTerm58),
    (12, 0b000000101011, .bTerm59), (12, 0b000000101100, .bTerm60), (12, 0b000001011010, .bTerm61),
    (12, 0b000001100110, .bTerm62), (12, 0b000001100111, .bTerm63)] : List (Nat × Nat × Instr))

/-- The code words of R82. -/
def whiteMakeupWords : List (Nat × Nat × Instr) :=
  ([(5, 0b11011, .wMakeup64), (5, 0b10010, .wMakeup128), (6, 0b010111, .wMakeup192),
    (7, 0b0110111, .wMakeup256), (8, 0b00110110, .wMakeup320), (8, 0b00110111, .wMakeup384),
    (8, 0b01100100, .wMakeup448), (8, 0b01100101, .wMakeup512)] : List (Nat × Nat × Instr)) ++
  ([(8, 0b01101000, .wMakeup576), (8, 0b01100111, .wMakeup640), (9, 0b011001100, .wMakeup704),
    (9, 0b011001101, .wMakeup768), (9, 0b011010010, .wMakeup832), (9, 0b011010011, .wMakeup896),
    (9, 0b011010100, .wMakeup960), (9, 0b011010101, .wMakeup1024)] : List (Nat × Nat × Instr)) ++
  ([(9, 0b011010110, .wMakeup1088), (9, 0b011010111, .wMakeup1152), (9, 0b011011000, .wMakeup1216),
    (9, 0b011011001, .wMakeup1280), (9, 0b011011010, .wMakeup1344), (9, 0b011011011, .wMakeup1408),
    (9, 0b010011000, .wMakeup1472), (9, 0b010011001, .wMakeup1536)] : List (Nat × Nat × Instr)) ++
  ([(9, 0b010011010, .wMakeup1600), (6, 0b011000, .wMakeup1664), (9, 0b010011011, .wMakeup1728)] : List (Nat × Nat × Instr))

/-- The code words of R83. -/
def blackMakeupWords : List (Nat × Nat × Instr) :=
  ([(10, 0b0000001111, .bMakeup64), (12, 0b000011001000, .bMakeup128), (12, 0b000011001001, .bMakeup192),
    (12, 0b000001011011, .bMakeup256), (12, 0b000000110011, .bMakeup320), (12, 0b000000110100, .bMakeup384),
    (12, 0b000000110101, .bMakeup448), (13, 0b0000001101100, .bMakeup512)] : List (Nat × Nat × Instr)) ++
  ([(13, 0b0000001101101, .bMakeup576), (13, 0b0000001001010, .bMakeup640), (13, 0b0000001001011, .bMakeup704),
    (13, 0b0000001001100, .bMakeup768), (13, 0b0000001001101, .bMakeup832), (13, 0b0000001110010, .bMakeup896),
    (13, 0b0000001110011, .bMakeup960), (13, 0b0000001110100, .bMakeup1024)] : List (Nat × Nat × Instr)) ++
  ([(13, 0b0000001110101, .bMakeup1088), (13, 0b0000001110110, .bMakeup1152), (13, 0b0000001110111, .bMakeup1216),
    (13, 0b0000001010010, .bMakeup1280), (13, 0b0000001010011, .bMakeup1344), (13, 0b0000001010100, .bMakeup1408),
    (13, 0b0000001010101, .bMakeup1472), (13, 0b0000001011010, .bMakeup1536)] : List (Nat × Nat × Instr)) ++
  ([(13, 0b0000001011011, .bMakeup1600), (13, 0b0000001100100, .bMakeup1664), (13, 0b0000001100101, .bMakeup1728)] : List (Nat × Nat × Instr))

/-- The code words of R84. -/
def extensionWords : List (Nat × Nat × Instr) :=
  ([(11, 0b00000001000, .extMakeup1792), (11, 0b00000001100, .extMakeup1856), (11, 0b00000001101, .extMakeup1920),
    (12, 0b000000010010, .extMakeup1984), (12, 0b000000010011, .extMakeup2048), (12, 0b000000010100, .extMakeup2112),
    (12, 0b000000010101, .extMakeup2176), (12, 0b000000010110, .extMakeup2240)] : List (Nat × Nat × Instr)) ++
  ([(12, 0b000000010111, .extMakeup2304), (12, 0b000000011100, .extMakeup2368), (12, 0b000000011101, .extMakeup2432),
    (12, 0b000000011110, .extMakeup2496), (12, 0b000000011111, .extMakeup2560)] : List (Nat × Nat × Instr))

/-- Whether the decoder reads every row's word in one colour's set as the row's instruction. -/
def readsAll (c : Polarity) (rows : List (Nat × Nat × Instr)) : Bool :=
  rows.all fun r => decide (decode (.huf c (msbBits r.1 r.2.1)) = .ok r.2.2)

theorem test_decode_whiteTerm : readsAll .white whiteTermWords = true := by decide
theorem test_decode_blackTerm : readsAll .black blackTermWords = true := by decide
theorem test_decode_whiteMakeup : readsAll .white whiteMakeupWords = true := by decide
theorem test_decode_blackMakeup : readsAll .black blackMakeupWords = true := by decide
theorem test_decode_extension : readsAll .white extensionWords = true ∧ readsAll .black extensionWords = true := by decide
theorem test_decode_eol :
    readsAll .white [(12, 0b000000000001, .eol)] = true ∧ readsAll .black [(12, 0b000000000001, .eol)] = true := by decide

/-- The opcodes of R71, with operand values of the kinds its table gives. -/
def commandWords : List (Code × Instr) :=
  ([(.command 0x01 [.sample (.index 7), .num 256], .rmSet (.index 7) 256), (.command 0x02 [], .rmGet),
    (.command 0x10 [.num 1], .bwInit 1), (.command 0x11 [.num 5, .num 3], .bwWrite 5 3), (.command 0x12 [], .bwFlush),
    (.command 0x13 [.num 0, .bytes [1]], .brInit 0 [1]), (.command 0x14 [.num 9], .brRead 9),
    (.command 0x20 [.num 75], .hufEncBegin 75), (.command 0x21 [.line (.runs [(.white, 2)])], .hufEncLine (.runs [(.white, 2)])),
    (.command 0x22 [], .hufEncEnd), (.command 0x24 [.bytes [1], .num 8], .hufDecBegin [1] 8),
    (.command 0x25 [], .hufDecLine), (.command 0x26 [.num 3], .hufDecPage 3)] : List (Code × Instr)) ++
  ([(.command 0x30 [.bytes [1]], .lzwEnc [1]), (.command 0x31 [.bytes [1], .num 2], .lzwDec [1] 2),
    (.command 0x32 [.bytes [1]], .sbPack [1]), (.command 0x33 [.bytes [1]], .sbUnpack [1]),
    (.command 0x40 [.bytes [1]], .pbEnc [1]), (.command 0x41 [.bytes [1], .num 2], .pbDec [1] 2),
    (.command 0x42 [.runs [⟨[5], 3⟩], .num 3], .cvEnc [⟨[5], 3⟩] 3), (.command 0x43 [.bytes [1], .num 2], .cvDec [1] 2),
    (.command 0x50 [.num 0x4D], .a85EncByte 0x4D), (.command 0x51 [], .a85EncEnd),
    (.command 0x52 [.bytes [1]], .a85Dec [1])] : List (Code × Instr))

/-- The tokens of R87 to R92, the words of spec/opcode_table.json. -/
def tokenWords : List (Code × Instr) :=
  ([(.lzw false 258 0x41, .lzwLiteral 0x41), (.lzw true 300 0x100, .lzwClear), (.lzw true 300 0x101, .lzwEnd),
    (.lzw true 300 0x102, .lzwString 258), (.lzw true 300 300, .lzwNext), (.lzw true 300 301, .lzwIllegal 301),
    (.lzw false 258 258, .lzwIllegal 258), (.subBlock 0xFF, .sbLength 0xFF), (.subBlock 0x00, .sbTerminator),
    (.packBits 0b00000000, .pbLiteral 0), (.packBits 0b01111111, .pbLiteral 0x7F), (.packBits 0b10000000, .pbIllegal80),
    (.packBits 0b10000001, .pbRepeat 1), (.packBits 0b11111111, .pbRepeat 0x7F)] : List (Code × Instr)) ++
  ([(.countValue 2 [1, 2, 0xFE, 9], .cvPacket [1, 2] 0xFE), (.ascii85 0x21 none, .a85Digit 0), (.ascii85 0x75 none, .a85Digit 84),
    (.ascii85 0x7A none, .a85Zero), (.ascii85 0x7E (some 0x3E), .a85End), (.ascii85 0x0A none, .a85Linebreak),
    (.ascii85 0x20 none, .a85Whitespace 0x20), (.ascii85 0x7E (some 0x3C), .a85Illegal 0x7E), (.ascii85 0x7E none, .a85Illegal 0x7E),
    (.ascii85 0x76 none, .a85Illegal 0x76)] : List (Code × Instr))

theorem test_decode_commands : (commandWords.all fun r => decide (decode r.1 = .ok r.2)) = true := by decide
theorem test_decode_tokens : (tokenWords.all fun r => decide (decode r.1 = .ok r.2)) = true := by decide
theorem test_decode_reserved : decode (.command 0x23 []) = .ok (.reservedOpcode 0x23) := by decide
theorem test_decode_bad_operands : decode (.command 0x10 [.bytes []]) = .error .operands := by decide
/-- HD6: 13 zeros are no code. -/
theorem test_decode_no_code : decode (.huf .white (List.replicate 13 false)) = .error .noCode := by decide
theorem test_decode_end_inside : decode (.huf .white [false, false, false]) = .error .endOfInput := by decide
theorem test_decode_partial_packet : decode (.countValue 2 [1, 2]) = .error .endOfInput := by decide

/-- The words of spec/opcode_table.json, as the host numbers them. -/
theorem test_table_command : decodeTableWord 8 0x33 = some (.sbUnpack []) := by decide
theorem test_table_code : decodeTableWord 16 0x98 = some .wMakeup1472 := by decide
theorem test_table_lzw : decodeTableWord 16 0x101 = some .lzwEnd := by decide
theorem test_fetch_table_word : (nextOf (step (State.reset.withFetchWord 8 0x30))).isSome = true := by decide

/-! ## Operations -/

/-- M1. -/
theorem test_rmSet : (nextOf (exec (.rmSet (.index 7) 256) idle)).map (fun t => t.rm) = some (some ⟨.index 7, 0x00FF⟩) := by
  decide
/-- M4. -/
theorem test_rmSet_refused : statusOf (.rmSet (.index 7) 65537) idle = some .invalidOperand := by decide
/-- M2. -/
theorem test_rmGet : resultOf (exec .rmGet { idle with rm := some ⟨.index 7, 0xFFFF⟩ }) = some (.run (.index 7) 65536) := by decide
/-- M5. -/
theorem test_rmGet_unwritten : statusOf .rmGet idle = some .invalidOperand := by decide
/-- R101. -/
theorem test_bwInit : (nextOf (exec (.bwInit 0) idle)).bind (fun t => t.bw) = some ⟨.msb, 0, 0, []⟩ := by decide
/-- Program 1, steps 2 and 3. -/
theorem test_bwWrite :
    (nextOf (exec (.bwWrite 0x1F 5) { idle with bw := some ⟨.msb, 0xA0, 3, []⟩ })).bind (fun t => t.bw) =
      some ⟨.msb, 0, 0, [0xBF]⟩ := by decide
/-- B5 with LSB-first order: the high bits of the value are masked. -/
theorem test_bwWrite_lsb :
    (nextOf (exec (.bwWrite 0xFFFF 4) { idle with bw := some ⟨.lsb, 0, 0, []⟩ })).bind (fun t => t.bw) =
      some ⟨.lsb, 0x0F, 4, []⟩ := by decide
/-- B2. -/
theorem test_bwFlush : resultOf (exec .bwFlush { idle with bw := some ⟨.msb, 0xA0, 3, []⟩ }) = some (.bytes [0xA0]) := by decide
/-- R105. -/
theorem test_brInit :
    (nextOf (exec (.brInit 1 [0x00, 0x01]) idle)).bind (fun t => t.br) = some ⟨.lsb, [0x00, 0x01], 0⟩ := by decide
/-- B8. -/
theorem test_brRead : resultOf (exec (.brRead 5) { idle with br := some ⟨.msb, [0xB5, 0x80], 3⟩ }) = some (.value 21) := by decide
/-- B9. -/
theorem test_brRead_lsb : resultOf (exec (.brRead 5) { idle with br := some ⟨.lsb, [0xB5, 0x80], 3⟩ }) = some (.value 22) := by
  decide
/-- H11. -/
theorem test_hufEncBegin_refused : statusOf (.hufEncBegin 0) idle = some .invalidOperand := by decide
/-- H10. -/
theorem test_hufEnc_page :
    resultOf (execAll (hufEncPage 10 [.runs [(.white, 2), (.black, 3), (.white, 5)]]) idle) =
      some (.bytes [0x7B, 0x00, 0x04, 0x00, 0x40, 0x04, 0x00, 0x40, 0x04, 0x00, 0x40]) := by decide
/-- H3: a row that starts with black. -/
theorem test_hufEncLine_black :
    (nextOf (exec (.hufEncLine (.row [.black, .black, .white, .white])) { idle with
        hufEnc := some ⟨4, BitWriter.fresh .msb, .white, 0⟩ })).bind (fun t => t.hufEnc) =
      some ⟨4, ⟨.msb, 0x40, 2, [0x35, 0xDC, 0x00]⟩, .white, 1⟩ := by decide
/-- H12. -/
theorem test_hufEncLine_mismatch :
    statusOf (.hufEncLine (.row (whites 7))) { idle with hufEnc := some ⟨8, BitWriter.fresh .msb, .white, 0⟩ } =
      some .pixelCountMismatch := by decide
/-- H5. -/
theorem test_hufEncEnd_empty :
    resultOf (exec .hufEncEnd { idle with hufEnc := some ⟨8, BitWriter.fresh .msb, .white, 0⟩ }) =
      some (.bytes [0x00, 0x10, 0x01, 0x00, 0x10, 0x01, 0x00, 0x10, 0x01]) := by decide
/-- H2 and R157: 1728 white pixels are one makeup code and one terminating code. -/
theorem test_runCodes_1728 : (runCodes .white 1728).map Entry.instr = [.wMakeup1728, .wTerm0] := by decide
/-- H6: an Extension code first. -/
theorem test_runCodes_2700 : (runCodes .white 2700).map Entry.instr = [.extMakeup2560, .wMakeup128, .wTerm12] := by decide +kernel
/-- R140. -/
theorem test_hufDecBegin :
    ((nextOf (exec (.hufDecBegin [1] 8) idle)).bind (fun t => t.hufDec)).map (fun d => d.columns) = some 8 := by decide
/-- H10 read back. -/
theorem test_hufDecLine :
    resultOf (exec .hufDecLine (decoderOn 10 [0x7B, 0x00, 0x04, 0x00])) =
      some (.row (whites 2 ++ List.replicate 3 .black ++ whites 5)) := by decide
/-- HD6. -/
theorem test_hufDecLine_corrupt : statusOf .hufDecLine (decoderOn 8 [0x00, 0x04]) = some .corruptBitstream := by decide
/-- HD2: a held EOL-only scanline becomes a white row. -/
theorem test_hufDecPage :
    resultOf (exec (.hufDecPage 2) (decoderOn 10 [0x00, 0x13, 0x80, 0x08])) = some (.rows [whites 10, whites 10]) := by decide
/-- HD3: three EOL-only scanlines end the page. -/
theorem test_hufDecPage_early :
    (resultOf (exec (.hufDecPage 5) (decoderOn 4 [0xB0, 0x01, 0x00, 0x10, 0x01, 0x00, 0x10])),
      statusOf (.hufDecPage 5) (decoderOn 4 [0xB0, 0x01, 0x00, 0x10, 0x01, 0x00, 0x10])) =
      (some (.rows [whites 4]), some .okEarlyEnd) := by decide
/-- Z3. -/
theorem test_lzwEnc :
    resultOf (exec (.lzwEnc [0x41, 0x42, 0x41, 0x42, 0x41, 0x42, 0x41]) idle) =
      some (.bytes [0x00, 0x83, 0x08, 0x11, 0x48, 0x30, 0x20]) := by decide
/-- Z4, with the special case of R193. -/
theorem test_lzwDec :
    resultOf (exec (.lzwDec [0x00, 0x83, 0x08, 0x1C, 0x18, 0x24, 0x20] 7) idle) =
      some (.bytes (List.replicate 7 0x41)) := by decide
/-- Z11. -/
theorem test_lzwDec_corrupt : statusOf (.lzwDec [0x00, 0x83, 0x10, 0x0C, 0x08] 2) idle = some .corruptBitstream := by decide
/-- Z12. -/
theorem test_sbPack : resultOf (exec (.sbPack [0x00, 0x03, 0x02]) idle) = some (.bytes [0x03, 0x00, 0x03, 0x02, 0x00]) := by decide
/-- Z17. -/
theorem test_sbUnpack : resultOf (exec (.sbUnpack [0x01, 0x07, 0x00, 0x09, 0x09]) idle) = some (.bytes [0x07]) := by decide
/-- Z15. -/
theorem test_sbUnpack_short : statusOf (.sbUnpack [0x03, 0x00, 0x03]) idle = some .corruptBitstream := by decide
/-- P6. -/
theorem test_pbEnc :
    resultOf (exec (.pbEnc [0x41, 0x42, 0x43, 0x43, 0x43, 0x43, 0x44]) idle) =
      some (.bytes [0x01, 0x41, 0x42, 0xFD, 0x43, 0x00, 0x44]) := by decide
/-- P10: a pair stays in a literal. -/
theorem test_pbEnc_pair :
    resultOf (exec (.pbEnc [1, 2, 2, 3, 3, 3]) idle) = some (.bytes [0x02, 0x01, 0x02, 0x02, 0xFE, 0x03]) := by decide
/-- P17. -/
theorem test_pbDec : resultOf (exec (.pbDec [0xFF, 0x05] 2) idle) = some (.bytes [0x05, 0x05]) := by decide
/-- P14. -/
theorem test_pbDec_over : statusOf (.pbDec [0xFD, 0x09] 2) idle = some .pixelCountMismatch := by decide
/-- V1. -/
theorem test_cvEnc : resultOf (exec (.cvEnc [⟨[0x05], 256⟩] 256) idle) = some (.bytes [0x05, 0xFE, 0x05, 0x00]) := by decide
/-- V5. -/
theorem test_cvEnc_mismatch : statusOf (.cvEnc [⟨[0x05], 3⟩] 4) idle = some .pixelCountMismatch := by decide
/-- V7. -/
theorem test_cvDec : resultOf (exec (.cvDec [0x05, 0xFF] 256) idle) = some (.runs [⟨[0x05], 256⟩]) := by decide
/-- V9. -/
theorem test_cvDec_partial : statusOf (.cvDec [0x05] 1) idle = some .pixelCountMismatch := by decide
/-- A5. -/
theorem test_a85Enc :
    resultOf (execAll (a85Enc [0x4D, 0x61, 0x6E, 0x20]) idle) =
      some (.bytes [0x39, 0x6A, 0x71, 0x6F, 0x5E, 0x7E, 0x3E]) := by decide
/-- A9: `z` for a full tuple only. -/
theorem test_a85Enc_zero : resultOf (execAll (a85Enc [0, 0, 0, 0, 0]) idle) = some (.bytes [0x7A, 0x21, 0x21, 0x7E, 0x3E]) := by
  decide
/-- R255: a line break before the 73rd character. -/
theorem test_a85EncByte_wraps :
    ((nextOf (exec (.a85EncByte 0) { idle with a85Enc := some ⟨#v[0, 0, 0, 0], 3, 72, []⟩ })).bind (fun t => t.a85Enc)).map
      (fun c => (c.out, c.lineCol)) = some ([0x0A, 0x7A], 1) := by decide
/-- Program 3, step 5. -/
theorem test_a85EncEnd :
    resultOf (exec .a85EncEnd { idle with a85Enc := some ⟨#v[0x4D, 0x61, 0x6E, 0], 3, 0, []⟩ }) =
      some (.bytes [0x39, 0x6A, 0x71, 0x6F, 0x7E, 0x3E]) := by decide
/-- A23: a line break inside a tuple is skipped. -/
theorem test_a85Dec :
    resultOf (exec (.a85Dec [0x39, 0x6A, 0x0A, 0x71, 0x6F, 0x5E, 0x7E, 0x3E]) idle) =
      some (.bytes [0x4D, 0x61, 0x6E, 0x20]) := by decide
/-- A20: one above the largest tuple. -/
theorem test_a85Dec_overflow :
    statusOf (.a85Dec [0x73, 0x38, 0x57, 0x2D, 0x22, 0x7E, 0x3E]) idle = some .corruptBitstream := by decide
/-- Program 3, step 3: a reserved opcode leaves the session as it is. -/
theorem test_reserved :
    nextOf (exec (.reservedOpcode 0x53) { idle with a85Enc := some ⟨#v[0x4D, 0x61, 0, 0], 2, 0, []⟩ }) =
      some { idle with a85Enc := some ⟨#v[0x4D, 0x61, 0, 0], 2, 0, []⟩, status := idle.status.set .none (some .invalidOperand) } := by decide

/-! ## Tokens -/

/-- The decoder of a line of 100 columns after 10 white pixels, in black. -/
def midLine : State :=
  { decoderOn 100 [] with
    hufDec := some { HufDec.fresh [] 100 with color := .black, row := whites 10 }
    active := some (.hufDec .line (.code false)) }

/-- R144: the run of the current colour closes and the colour flips. -/
theorem test_token_terminating :
    ((nextOf (exec .bTerm3 midLine)).bind (fun t => t.hufDec)).map (fun d => (d.row, d.color)) =
      some (whites 10 ++ List.replicate 3 .black, .white) := by decide
/-- R147: a makeup code adds to the pending run. -/
theorem test_token_makeup :
    ((nextOf (exec .bMakeup64 midLine)).bind (fun t => t.hufDec)).map (fun d => (d.pending, d.pendingValid, d.color)) =
      some (64, true, .black) := by decide
/-- R149: a row overflow. -/
theorem test_token_overflow : statusOf .extMakeup1792 midLine = some .corruptBitstream := by decide
/-- R147: a code word of the other colour cannot be read. -/
theorem test_token_other_colour : refusalOf (exec .wTerm3 midLine) = some .tokenNotReadable := by decide
/-- R148: an early EOL pads the row with its last pixel. -/
theorem test_token_eol : resultOf (exec .eol midLine) = some (.row (whites 100)) := by decide
/-- R193: the code `next`. -/
theorem test_token_lzwNext :
    (nextOf (exec .lzwNext (inside (.lzwDec { LzwDec.fresh [] 9 with prev := some 65 })))).map (fun t => t.active) =
      some (some (.lzwDec ⟨⟨.lsb, [], 0⟩, [(65, 0x41)], 259, 9, some 258, 2, 9, [0x41, 0x41]⟩)) := by decide
/-- R191, R194. -/
theorem test_token_lzwString :
    (nextOf (exec (.lzwString 258) (inside (.lzwDec
        { LzwDec.fresh [] 9 with entries := [(65, 0x42)], next := 259, prev := some 66 })))).map (fun t => t.active) =
      some (some (.lzwDec ⟨⟨.lsb, [], 0⟩, [(65, 0x42), (66, 0x41)], 260, 9, some 258, 2, 9, [0x41, 0x42]⟩)) := by decide
/-- R184: the width grows when `next` reaches the power of two, and not above 12. -/
theorem test_widen : widen 511 9 = 9 ∧ widen 512 9 = 10 ∧ widen 4096 12 = 12 := by decide
theorem test_token_lzwClear :
    (nextOf (exec .lzwClear (inside (.lzwDec { LzwDec.fresh [] 9 with
        entries := [(65, 0x42)], next := 259, width := 12, prev := some 66 })))).map (fun t => t.active) =
      some (some (.lzwDec (LzwDec.fresh [] 9))) := by decide
theorem test_token_lzwEnd : statusOf .lzwEnd (inside (.lzwDec (LzwDec.fresh [] 1))) = some .pixelCountMismatch := by decide
theorem test_token_lzwIllegal : statusOf (.lzwIllegal 300) (inside (.lzwDec (LzwDec.fresh [] 1))) = some .corruptBitstream := by
  decide
theorem test_token_sbLength :
    (nextOf (exec (.sbLength 2) (inside (.sbUnpack ⟨[2, 7, 8, 0], 1, []⟩)))).map (fun t => t.active) =
      some (some (.sbUnpack ⟨[2, 7, 8, 0], 3, [7, 8]⟩)) := by decide
theorem test_token_sbTerminator : resultOf (exec .sbTerminator (inside (.sbUnpack ⟨[], 0, [7]⟩))) = some (.bytes [7]) := by decide
theorem test_token_pbLiteral :
    (nextOf (exec (.pbLiteral 1) (inside (.pbDec ⟨[1, 7, 8], 1, 5, 0, []⟩)))).map (fun t => t.active) =
      some (some (.pbDec ⟨[1, 7, 8], 3, 5, 2, [7, 8]⟩)) := by decide
/-- R89: header 0xFD stands for four copies. -/
theorem test_token_pbRepeat :
    (nextOf (exec (.pbRepeat 0x7D) (inside (.pbDec ⟨[0xFD, 7], 1, 5, 0, []⟩)))).map (fun t => t.active) =
      some (some (.pbDec ⟨[0xFD, 7], 2, 5, 4, [7, 7, 7, 7]⟩)) := by decide
/-- P13. -/
theorem test_token_pbIllegal80 : statusOf .pbIllegal80 (inside (.pbDec ⟨[0x80, 1], 1, 1, 0, []⟩)) = some .corruptBitstream := by
  decide
theorem test_token_cvPacket :
    (nextOf (exec (.cvPacket [5] 0xFF) (inside (.cvDec ⟨[5, 0xFF], 2, 256, 0, []⟩)))).map (fun t => t.active) =
      some (some (.cvDec ⟨[5, 0xFF], 2, 256, 256, [⟨[5], 256⟩]⟩)) := by decide
/-- A5: the last digit of `9jqo^`. -/
theorem test_token_a85Digit :
    (nextOf (exec (.a85Digit 61) (inside (.a85Dec ⟨[], 0, [24, 73, 80, 78], []⟩)))).map (fun t => t.active) =
      some (some (.a85Dec ⟨[], 0, [], [0x4D, 0x61, 0x6E, 0x20]⟩)) := by decide
/-- A18. -/
theorem test_token_a85Zero : statusOf .a85Zero (inside (.a85Dec ⟨[], 0, [24, 73, 80], []⟩)) = some .corruptBitstream := by decide
/-- R262: four digits give three bytes. -/
theorem test_token_a85End :
    resultOf (exec .a85End (inside (.a85Dec ⟨[], 0, [24, 73, 80, 78], []⟩))) = some (.bytes [0x4D, 0x61, 0x6E]) := by decide
theorem test_token_a85Linebreak :
    nextOf (exec .a85Linebreak (inside (.a85Dec ⟨[], 0, [24], []⟩))) = some (inside (.a85Dec ⟨[], 0, [24], []⟩)) := by decide
theorem test_token_a85Whitespace :
    nextOf (exec (.a85Whitespace 0x20) (inside (.a85Dec ⟨[], 0, [24], []⟩))) = some (inside (.a85Dec ⟨[], 0, [24], []⟩)) := by decide
/-- A25. -/
theorem test_token_a85Illegal : statusOf (.a85Illegal 0x7B) (inside (.a85Dec ⟨[], 0, [64, 65], []⟩)) = some .corruptBitstream := by
  decide

/-! ## Steps -/

theorem test_step_command :
    nextOf (step { idle with queue := [⟨0x10, [.num 1]⟩] }) =
      some { idle with status := idle.status.set .bitWriter (some .ok), bw := some ⟨.lsb, 0, 0, []⟩ } := by decide
theorem test_step_idle : nextOf (step idle) = some idle := by decide
theorem test_step_bad_command :
    nextOf (step { idle with queue := [⟨0x10, []⟩] }) = some { idle with status := idle.status.set .bitWriter (some .invalidOperand) } := by decide
/-- R282, R288: a `value` above u16 is an operand out of range, and a failing draw comes before its refusal. -/
theorem test_step_bad_value :
    ((nextOf (step { writing 9 with queue := [⟨0x11, [.num 65536, .num 3]⟩] })).map fun t => (t.status.bitWriter, t.bw.isSome),
      (nextOf (step { writing 9 with queue := [⟨0x11, [.num 65536, .num 3]⟩], allocDraws := [true] })).map fun t =>
        (t.status.bitWriter, t.bw.isSome)) =
      (some (some .invalidOperand, true), some (some .allocationFailure, false)) := by decide
/-- R39: each session has its own status. -/
theorem test_status_per_session :
    (nextOf (execAll [.bwInit 0, .sbUnpack [], .brInit 2 []] idle)).map (fun t =>
        (t.readStatus .bitWriter, t.readStatus .sbUnpack, t.readStatus .bitReader, t.readStatus .hufEnc)) =
      some (some 0, some 3, some 5, none) := by decide
/-- R42: a status is not read while an operation of its session is in progress, whatever it held before. -/
theorem test_readStatus_inside :
    (({ inside (.sbPack (ByteCoder.fresh [7])) with status := idle.status.set .sbPack (some .ok) }).readStatus .sbPack,
      (idle.entered (.sbPack (ByteCoder.fresh [7]))).status.sbPack) = (none, none) := by decide
/-- R35: the cursor of the count/value encoder moves past the run it takes up. -/
theorem test_step_cvEnc :
    (nextOf (step (inside (.cvEnc (CvEnc.fresh [⟨[5], 3⟩, ⟨[9], 1⟩]))))).map (fun t => t.active) =
      some (some (.cvEnc ⟨[⟨[5], 3⟩, ⟨[9], 1⟩], 1, some ⟨[5], 3⟩, []⟩)) := by decide
/-- HD14: a full row at a padding tail ends the scanline in the turn after its last code. -/
theorem test_steps_to_end :
    resultOf (stepsToEnd 3 { decoderOn 8 [0x98] with active := some (.hufDec .line .head) }) = some (.row (whites 8)) := by decide
theorem test_status_codes :
    [Status.ok, .okEarlyEnd, .allocationFailure, .corruptBitstream, .pixelCountMismatch, .invalidOperand].map Status.code =
      [0, 1, 2, 3, 4, 5] := by decide

/-! ## Witnesses: for each statement, a state and operands that meet the hypotheses of each of its clauses -/

theorem witness_ResetOpensNoSessionAndWritesNothing :
    (inside (.sbPack (ByteCoder.fresh [7]))).active = some (.sbPack (ByteCoder.fresh [7])) := by decide

theorem witness_RmSetStoresTheCountLessOne :
    idle.ready = true ∧ (1 ≤ 1 ∧ 1 ≤ 65536) ∧ (1 ≤ 65536 ∧ 65536 ≤ 65536) ∧ (0 = 0 ∨ 65536 < 0) ∧ (65537 = 0 ∨ 65536 < 65537) := by
  decide

theorem witness_RmGetReturnsTheLengthPlusOne :
    idle.ready = true ∧ idle.rm = none ∧ { idle with rm := some ⟨.index 7, 0xFFFF⟩ }.ready = true := by decide

theorem witness_BitSessionsOpenFresh : (writing 9).ready = true ∧ 0 = 0 ∧ 1 = 1 ∧ 1 < 2 := by decide

/-- 11 bits are held: 13 more make three bytes, which do not fit in two; 12 more fit. -/
theorem witness_BwWriteAppendsTheLowBits :
    (writing 2).ready = true ∧ 16 < 17 ∧ idle.bw = none ∧
    (∃ b, (writing 2).bw = some b ∧ b.wf (writing 2).params = true ∧ 12 ≤ 16 ∧
      (b.bits.length + 12) / 8 ≤ (writing 2).params.outCapacity ∧
      13 ≤ 16 ∧ (writing 2).params.outCapacity < (b.bits.length + 13) / 8) :=
  ⟨by decide, by decide, by decide, ⟨.msb, 0xA0, 3, [0x35]⟩, rfl, by decide, by decide, by decide, by decide, by decide⟩

theorem witness_WritesKeepEveryBitInOrder :
    idle.quiet = true ∧ ((1 = 0 ∧ BitOrder.lsb = .msb) ∨ (1 = 1 ∧ BitOrder.lsb = .lsb)) ∧
    (∀ w ∈ ([(5, 3), (0x1FF, 16), (1, 0)] : List (Word16 × Nat)), w.2 ≤ 16) ∧
    (([(5, 3), (0x1FF, 16), (1, 0)] : List (Word16 × Nat)).map Prod.snd).sum / 8 ≤ idle.params.outCapacity := by decide

/-- 11 bits are flushed to two bytes. -/
theorem witness_BwFlushReturnsThePaddedBits :
    idle.ready = true ∧ idle.bw = none ∧
    (∃ b, (writing 2).bw = some b ∧ b.wf (writing 2).params = true ∧ b.wf (writing 1).params = true ∧
      (b.bits.length + 7) / 8 ≤ (writing 2).params.outCapacity ∧ (writing 1).params.outCapacity < (b.bits.length + 7) / 8) :=
  ⟨by decide, by decide, ⟨.msb, 0xA0, 3, [0x35]⟩, rfl, by decide, by decide, by decide, by decide⟩

/-- 13 bits remain: 13 can be read, 14 cannot. -/
theorem witness_BrReadTakesTheNextBits :
    idle.ready = true ∧ idle.br = none ∧ 16 < 17 ∧
    (∃ r, { idle with br := some ⟨.msb, [0xB5, 0x80], 3⟩ }.br = some r ∧ 13 ≤ 16 ∧ 13 ≤ r.bits.length ∧ 14 ≤ 16 ∧
      r.bits.length < 14) :=
  ⟨by decide, by decide, by decide, ⟨.msb, [0xB5, 0x80], 3⟩, rfl, by decide, by decide, by decide, by decide⟩

theorem witness_BitStreamRoundTrip :
    idle.quiet = true ∧ 1 ≤ 1 ∧ (∀ w ∈ ([(5, 3), (0x1FF, 16)] : List (Word16 × Nat)), w.2 ≤ 16) ∧
    ((([(5, 3), (0x1FF, 16)] : List (Word16 × Nat)).map Prod.snd).sum + 7) / 8 ≤ idle.params.outCapacity ∧
    ([(5, 3), (0x1FF, 16)] : List (Word16 × Nat))[1]? = some (0x1FF, 16) := by decide

theorem witness_HuffmanSessionsOpenFresh :
    idle.ready = true ∧ (1 ≤ 1 ∧ 1 ≤ 65536) ∧ (1 ≤ 65536 ∧ 65536 ≤ 65536) ∧ (0 = 0 ∨ 65536 < 0) ∧
    (65537 = 0 ∨ 65536 < 65537) := by decide

/-- An encoder of rows of four pixels. -/
def encoding (cap : Nat) : State := { narrow cap with hufEnc := some ⟨4, BitWriter.fresh .msb, .white, 0⟩ }

/-- The row `1011` of H3 takes 26 bits: three bytes are emitted. -/
theorem witness_HufEncLineAppendsTheRunCodesAndEol :
    (encoding 3).ready = true ∧ idle.hufEnc = none ∧ (Line.runs [(.black, 0)]).ok = false ∧
    (∃ h, (encoding 3).hufEnc = some h ∧ h.wf (encoding 3).params = true ∧ h.wf (encoding 2).params = true ∧
      (Line.row [.black]).ok = true ∧ (linePixels (.row [.black])).length ≠ h.columns ∧
      (Line.runs [(.black, 2), (.white, 2)]).ok = true ∧ (linePixels (.runs [(.black, 2), (.white, 2)])).length = h.columns ∧
      (h.bw.bits ++ lineBits [.black, .black, .white, .white]).length / 8 ≤ (encoding 3).params.outCapacity ∧
      (encoding 2).params.outCapacity < (h.bw.bits ++ lineBits [.black, .black, .white, .white]).length / 8) :=
  ⟨by decide, by decide, by decide, ⟨4, BitWriter.fresh .msb, .white, 0⟩, rfl, by decide, by decide, by decide, by decide,
    by decide, by decide, by decide, by decide⟩

theorem witness_RowRunsAlternateFromWhite : (rowRuns [.black, .black, .white])[0]? = some (.white, 0) := by decide

theorem witness_OneRunIsMakeupsAndOneTerminatingCode : 64 % 64 = 0 ∧ 64 ≤ 64 ∧ 64 ≤ 2560 ∧ 2560 % 64 = 0 ∧ 2560 ≤ 2560 := by decide

/-- Six EOLs are 72 bits, nine bytes. -/
theorem witness_HufEncEndCompletesSixEols :
    (encoding 9).ready = true ∧ idle.hufEnc = none ∧
    (∃ h, (encoding 9).hufEnc = some h ∧ h.wf (encoding 9).params = true ∧
      ((h.bw.bits ++ codeBits (List.replicate (6 - h.trailingEols) eolEntry)).length + 7) / 8 ≤ (encoding 9).params.outCapacity ∧
      (encoding 8).params.outCapacity <
        ((h.bw.bits ++ codeBits (List.replicate (6 - h.trailingEols) eolEntry)).length + 7) / 8) :=
  ⟨by decide, by decide, ⟨4, BitWriter.fresh .msb, .white, 0⟩, rfl, by decide, by decide, by decide⟩

/-- Two lines, a row and a run sequence. -/
def twoLines : List Line := [.row [.black, .black, .white], .runs [(.white, 1), (.black, 2)]]

/-- Also the witness of HuffmanPageRoundTrip. -/
theorem witness_HuffmanPageStreamFormat :
    idle.quiet = true ∧ 1 ≤ 3 ∧ 3 ≤ 65536 ∧ (∀ l ∈ twoLines, l.ok = true ∧ (linePixels l).length = 3) ∧
    ((pageBits (twoLines.map linePixels)).length + 7) / 8 ≤ idle.params.outCapacity := by decide

theorem witness_HufDecLineReadsAnEncodedRow :
    ∃ d, (decoderOn 10 [0x7B, 0x00, 0x04, 0x00]).ready = true ∧ (decoderOn 10 [0x7B, 0x00, 0x04, 0x00]).hufDec = some d ∧
      d.br.order = .msb ∧ (whites 2 ++ List.replicate 3 Polarity.black ++ whites 5).length = d.columns ∧
      d.br.bits = lineBits (whites 2 ++ List.replicate 3 .black ++ whites 5) ++ List.replicate 10 false :=
  ⟨HufDec.fresh [0x7B, 0x00, 0x04, 0x00] 10, by decide, rfl, by decide, by decide, by decide⟩

/-- HD14: the row of `[0x98]` ends at a padding tail of three bits. -/
theorem witness_HufDecLineReadsAnEncodedRow_padding :
    (decoderOn 8 [0x98]).ready = true ∧ (decoderOn 8 [0x98]).hufDec = some (HufDec.fresh [0x98] 8) ∧
    (rowCodes (whites 8)).getLast? = some (termCode .white 8) ∧ (whites 8).length = (HufDec.fresh [0x98] 8).columns ∧
    (HufDec.fresh [0x98] 8).br.bits = codeBits (rowCodes (whites 8)) ++ List.replicate 3 false ∧
    padding (List.replicate 3 false) := by decide

theorem witness_HufDecLineWithoutARow :
    idle.ready = true ∧ idle.hufDec = none ∧
    (HufDec.fresh [0x00, 0x10] 8).br.bits = eolEntry.bits ++ List.replicate 4 false ∧
    padding (HufDec.fresh [] 8).br.bits ∧ ¬ padding (HufDec.fresh [0x00, 0x04] 8).br.bits ∧
    (∀ e ∈ codeSet .white, ¬ e.bits <+: (HufDec.fresh [0x00, 0x04] 8).br.bits) ∧ 1 ≤ (HufDec.fresh [] 8).columns := by
  refine ⟨by decide, by decide, by decide, by decide, by decide, ?_, by decide⟩
  decide

theorem witness_HufDecPageEnds :
    idle.ready = true ∧ idle.hufDec = none ∧
    0 ≤ (HufDec.fresh [] 8).rowsOut.length + (HufDec.fresh [] 8).held ∧
    (HufDec.fresh [0x00, 0x10, 0x01, 0x00, 0x10] 8).br.bits =
      codeBits (List.replicate (3 - (HufDec.fresh [0x00, 0x10, 0x01, 0x00, 0x10] 8).held) eolEntry) ++ List.replicate 4 false ∧
    (HufDec.fresh [] 8).held < 3 ∧ (HufDec.fresh [] 8).rowsOut.length + 3 ≤ 3 ∧
    (HufDec.fresh [] 8).rowsOut.length + (HufDec.fresh [] 8).held < 1 ∧
    padding (HufDec.fresh [] 8).br.bits ∧
    (HufDec.fresh [0x98] 8).br.bits = codeBits (rowCodes (whites 8)) ++ List.replicate 3 false ∧
    1 = (HufDec.fresh [0x98] 8).rowsOut.length + (HufDec.fresh [0x98] 8).held + 1 ∧
    (HufDec.fresh [0x98] 8).rowsOut.length + (HufDec.fresh [0x98] 8).held + 1 < 2 := by decide

/-- A decoder of ten columns between two code words. -/
def atCode (mode : HufMode) (d : HufDec) (first : Bool) : State :=
  { idle with hufDec := some d, active := some (.hufDec mode (.code first)) }

/-- Nine pixels of a row. -/
def nine : HufDec := { HufDec.fresh [] 10 with row := whites 9, color := .black }

theorem witness_TerminatingCodesCloseTheRun :
    codeEntry .bTerm1 = some (termCode .black 1) ∧ codeEntry .bTerm2 = some (termCode .black 2) ∧
    (termCode .black 1).cls = (if nine.color = .white then .terminatingWhite else .terminatingBlack) ∧
    (termCode .black 2).cls = (if nine.color = .white then .terminatingWhite else .terminatingBlack) ∧
    (atCode .line nine false).hufDec = some nine ∧ nine.row.length < nine.columns ∧
    nine.row.length + nine.pending + (termCode .black 1).runValue ≤ nine.columns ∧
    nine.columns < nine.row.length + nine.pending + (termCode .black 2).runValue := by decide

theorem witness_MakeupCodesAccumulate :
    codeEntry .bMakeup64 = some (makeupCode .black 64) ∧ codeEntry .extMakeup1792 = some (makeupCode .black 1792) ∧
    (makeupCode .black 64).cls = (if nine.color = .white then .makeupWhite else .makeupBlack) ∧
    (makeupCode .black 1792).cls = .extension ∧
    { nine with columns := 73 }.row.length + nine.pending + (makeupCode .black 64).runValue ≤ { nine with columns := 73 }.columns ∧
    { nine with columns := 72 }.columns < { nine with columns := 72 }.row.length + nine.pending + (makeupCode .black 64).runValue :=
  by decide

/-- Also the witness of EolInsideAPage, with `held` 1 and 2. -/
theorem witness_EolEndsALine :
    { nine with row := whites 10 }.row.length = { nine with row := whites 10 }.columns ∧
    codeEntry .bTerm2 = some (termCode .black 2) ∧ termCode .black 2 ∈ codeSet nine.color ∧ (termCode .black 2).cls ≠ .eol ∧
    nine.row.length < nine.columns ∧ { nine with pendingValid := true }.pendingValid = true ∧ nine.pendingValid = false ∧
    (atCode .line nine true).active = some (.hufDec .line (.code true)) ∧
    (atCode (.page 5) nine false).active = some (.hufDec (.page 5) (.code false)) ∧
    { nine with held := 1 }.held < 2 ∧ { nine with held := 2 }.held = 2 := by decide

/-- A decoder that has read `A` and assigned 258. -/
def lzwAt (produced expected : Nat) : LzwDec :=
  ⟨⟨.lsb, [1, 2, 3], 9⟩, [(65, 0x42)], 259, 9, some 66, produced, expected, List.replicate produced 0x41⟩

theorem witness_LzwCodesResolveToStrings :
    (lzwAt 98 100).wf idle.params = true ∧ (inside (.lzwDec (lzwAt 98 100))).active = some (.lzwDec (lzwAt 98 100)) ∧
    (258 < (lzwAt 98 100).next ∧ (lzwAt 98 100).string 258 = some [0x41, 0x42] ∧ (lzwAt 98 100).prev ≠ none) ∧
    (259 = (lzwAt 98 100).next ∧ 259 < 2 ^ (lzwAt 98 100).width ∧ (lzwAt 98 100).prev = some 66 ∧
      (lzwAt 98 100).string 66 = some [0x42]) ∧
    (lzwAt 98 100).out.length + 2 ≤ idle.params.outCapacity ∧ (lzwAt 98 100).produced + 2 ≤ (lzwAt 98 100).expected ∧
    (lzwAt 98 99).wf idle.params = true ∧ (lzwAt 98 99).expected < (lzwAt 98 99).produced + 2 ∧
    (lzwAt 99 200).wf idle.params = true ∧ idle.params.outCapacity < (lzwAt 99 200).out.length + 2 := by decide

theorem witness_LzwStringsFollowThePrefixChain : (lzwAt 1 9).wf idle.params = true ∧ 258 ≤ 258 ∧ 258 < (lzwAt 1 9).next := by decide

theorem witness_LzwClearEndAndIllegalCodes :
    (lzwAt 9 9).produced = (lzwAt 9 9).expected ∧ (lzwAt 1 9).produced ≠ (lzwAt 1 9).expected ∧
    (258 ≤ 260 ∧ 260 < 2 ^ (lzwAt 1 9).width ∧ ((lzwAt 1 9).next < 260 ∨ (lzwAt 1 9).prev = none)) ∧
    (258 ≤ 258 ∧ 258 < 2 ^ (LzwDec.fresh [] 1).width ∧ ((LzwDec.fresh [] 1).next < 258 ∨ (LzwDec.fresh [] 1).prev = none)) := by decide

/-- Also the witness of LzwStreamStartsWithClearAndEndsWithEnd. -/
theorem witness_LzwRoundTrip :
    (narrow 29).ready = true ∧ 3 * (List.replicate 7 (0x41 : Byte)).length + 8 ≤ (narrow 29).params.outCapacity ∧
    (narrow 7).ready = true ∧ (List.replicate 7 (0x41 : Byte)).length ≤ (narrow 7).params.outCapacity ∧
    3 ≤ (narrow 3).params.outCapacity := by decide

/-- Z3: the phrases of `ABABABA` are A, B, AB and ABA, in 54 bits; the code widths change at the 256th code after a clear. -/
theorem witness_LzwEncWritesTheLongestMatches :
    idle.ready = true ∧ (narrow 6).ready = true ∧
    lzwCodes [] [[0x41], [0x42], [0x41, 0x42], [0x41, 0x42, 0x41]] =
      [(65, 9), (66, 9), (258, 9), (260, 9), (257, 9)] ∧
    packBits .lsb (lzwBits [[0x41], [0x42], [0x41, 0x42], [0x41, 0x42, 0x41]]) = [0x00, 0x83, 0x08, 0x11, 0x48, 0x30, 0x20] ∧
    lzwWidth (256 + 255) = 9 ∧ lzwWidth (256 + 256) = 10 ∧ lzwWidth (256 + 3839) = 12 ∧
    ((lzwBits [[0x41], [0x42], [0x41, 0x42], [0x41, 0x42, 0x41]]).length + 7) / 8 ≤ idle.params.outCapacity ∧
    (narrow 6).params.outCapacity < ((lzwBits [[0x41], [0x42], [0x41, 0x42], [0x41, 0x42, 0x41]]).length + 7) / 8 := by decide

theorem witness_SbPackFillsBlocksOf255 : idle.ready = true ∧ (narrow 4).ready = true := by decide

theorem witness_SbUnpackReturnsTheData :
    idle.ready = true ∧ (∀ d ∈ ([[1], [2, 3]] : List (List Byte)), 1 ≤ d.length ∧ d.length ≤ 255) ∧
    ([[1], [2, 3]] : List (List Byte)).flatten.length ≤ idle.params.outCapacity ∧
    ([7] : List Byte).length < (2 : Byte).toNat := by decide

theorem witness_SubBlockAndCountValueTokens :
    (ByteCoder.mk [3, 7, 8, 9] 1 (List.replicate 97 0)).wf idle.params = true ∧
    (1 + (3 : Byte).toNat ≤ 4 ∧ 97 + (3 : Byte).toNat ≤ idle.params.outCapacity) ∧ 4 < 1 + (4 : Byte).toNat ∧
    (ByteCoder.mk [3, 7, 8, 9] 1 (List.replicate 98 0)).wf idle.params = true ∧
    idle.params.outCapacity < 98 + (3 : Byte).toNat ∧
    ([5] : List Byte).length = idle.params.sampleBytes ∧ 0 + ((0xFF : Byte).toNat + 1) ≤ 256 ∧ 255 < 0 + ((0xFF : Byte).toNat + 1) := by
  decide

theorem witness_PbEncEmitsGreedyPackets :
    (narrow 4).ready = true ∧ (pbBytes [.literal [1], .rep 3 2]).length ≤ (narrow 4).params.outCapacity ∧
    (narrow 3).ready = true ∧ (narrow 3).params.outCapacity < (pbBytes [.literal [1], .rep 3 2]).length ∧
    ([1, 2, 2, 2] : List Byte).length ≤ idle.params.outCapacity ∧
    pbData [.literal [1], .rep 3 2] = [1, 2, 2, 2] ∧ ([.literal [1], .rep 3 2] : List PbPacket) = [] ++ .literal [1] :: [.rep 3 2] ∧
    ([.literal [1], .rep 3 2] : List PbPacket) = [.literal [1]] ++ .rep 3 2 :: [] := by decide

theorem witness_PbDecExpandsLegalPackets :
    idle.ready = true ∧ (∀ p ∈ ([.literal [1], .rep 2 5] : List PbPacket), p.legal = true) ∧
    (pbData [.literal [1], .rep 2 5]).length ≤ idle.params.outCapacity ∧ (pbData [.literal [1], .rep 2 5]).length < 4 ∧
    (PbPacket.rep 3 7).legal = true ∧ 4 < (pbData [.literal [1], .rep 2 5]).length + (PbPacket.rep 3 7).data.length := by decide

theorem witness_PackBitsHeaderTokens :
    (PbDec.mk [1, 7, 8] 1 99 97 (List.replicate 97 0)).wf idle.params = true ∧
    (1 + 2 ≤ 3 ∧ 97 + ([7, 8] : List Byte).length ≤ 99 ∧ 97 + ([7, 8] : List Byte).length ≤ idle.params.outCapacity) ∧
    (PbDec.mk [1, 7, 8] 2 99 97 (List.replicate 97 0)).wf idle.params = true ∧ (3 < 2 + 2 ∨ 99 < 97 + ([8] : List Byte).length) ∧
    (PbDec.mk [0xFE, 7] 1 99 97 (List.replicate 97 0)).wf idle.params = true ∧ (0x7E : BitVec 7) ≠ 0 ∧
    (2 < 1 + 1 ∨ 99 < 97 + (List.replicate (129 - (0x7E : BitVec 7).toNat) (7 : Byte)).length) ∧
    (PbDec.mk [0xFE, 7] 1 110 98 (List.replicate 98 0)).wf idle.params = true ∧
    (1 + 1 ≤ 2 ∧ 98 + (List.replicate (129 - (0x7E : BitVec 7).toNat) (7 : Byte)).length ≤ 110 ∧
      idle.params.outCapacity < 98 + (List.replicate (129 - (0x7E : BitVec 7).toNat) (7 : Byte)).length) := by decide

theorem witness_CvEncSplitsEachRun :
    idle.ready = true ∧
    (∃ r ∈ ([⟨[1, 2], 3⟩] : List CvRun), r.sample.length ≠ idle.params.sampleBytes ∨ r.count = 0 ∨ 65536 < r.count) ∧
    (∃ r ∈ ([⟨[1], 65537⟩] : List CvRun), r.sample.length ≠ idle.params.sampleBytes ∨ r.count = 0 ∨ 65536 < r.count) ∧
    (∀ r ∈ ([⟨[1], 256⟩] : List CvRun), r.sample.length = idle.params.sampleBytes ∧ 1 ≤ r.count ∧ r.count ≤ 65536) ∧
    (([⟨[1], 256⟩] : List CvRun).map CvRun.count).sum ≠ 255 ∧ (([⟨[1], 256⟩] : List CvRun).map CvRun.count).sum = 256 ∧
    (cvBytes (([⟨[1], 256⟩] : List CvRun).flatMap cvSplit)).length ≤ (narrow 4).params.outCapacity ∧
    (narrow 3).params.outCapacity < (cvBytes (([⟨[1], 256⟩] : List CvRun).flatMap cvSplit)).length ∧
    idle.params.sampleBytes = (narrow 4).params.sampleBytes := by decide

theorem witness_CvDecReturnsOneRunPerPacket :
    idle.ready = true ∧
    (∀ r ∈ ([⟨[1], 256⟩, ⟨[1], 1⟩] : List CvRun), r.sample.length = idle.params.sampleBytes ∧ 1 ≤ r.count ∧ r.count ≤ 256) ∧
    (([⟨[1], 256⟩, ⟨[1], 1⟩] : List CvRun).map CvRun.count).sum < 258 ∧ ([5] : List Byte).length ≤ idle.params.sampleBytes ∧
    258 < (([⟨[1], 256⟩, ⟨[1], 1⟩] : List CvRun).map CvRun.count).sum + 2 := by decide

/-- An Ascii85 session with three pending bytes at the end of a line. -/
def a85Full : A85Enc := ⟨#v[0, 0, 0, 0], 3, 72, List.replicate 72 0x7A⟩

theorem witness_A85EncByteWritesFullTuples :
    idle.ready = true ∧ (idle.a85Enc = none ∧ A85Enc.fresh = ⟨#v[0, 0, 0, 0], 0, 0, []⟩) ∧
    A85Enc.fresh.wf idle.params = true ∧ A85Enc.fresh.pendingCount < 3 ∧
    a85Full.wf (narrow 74).params = true ∧ a85Full.pendingCount = 3 ∧
    (a85Full.out ++ wrapped a85Full.lineCol (a85Chars [0, 0, 0, 0])).length ≤ (narrow 74).params.outCapacity ∧
    (narrow 73).params.outCapacity < (a85Full.out ++ wrapped a85Full.lineCol (a85Chars [0, 0, 0, 0])).length := by decide

theorem witness_A85EncEndWritesThePartialTuple :
    { narrow 79 with a85Enc := some a85Full }.ready = true ∧ a85Full.wf (narrow 79).params = true ∧
    (a85Full.out ++ wrapped a85Full.lineCol (a85Chars (a85Full.pending.toList.take a85Full.pendingCount)) ++ [0x7E, 0x3E]).length ≤
      (narrow 79).params.outCapacity ∧
    (narrow 78).params.outCapacity <
      (a85Full.out ++ wrapped a85Full.lineCol (a85Chars (a85Full.pending.toList.take a85Full.pendingCount)) ++ [0x7E, 0x3E]).length := by
  decide

/-- Also the witness of A85RoundTrip. -/
theorem witness_A85StreamIsTheWrappedTuples :
    idle.quiet = true ∧ idle.a85Enc = none ∧ (a85Stream [0, 0, 0, 0, 0x4D]).length ≤ idle.params.outCapacity ∧
    idle.ready = true ∧ ([0, 0, 0, 0, 0x4D] : List Byte).length ≤ idle.params.outCapacity ∧
    ([0, 0, 0] : List Byte) = List.replicate 3 0 := by decide

theorem witness_DigitsAreBase85 : 0 < 2 ^ 32 ∧ 2 ^ 32 - 1 < 2 ^ 32 := by decide

theorem witness_Ascii85CharacterTokens :
    (A85Dec.mk [] 0 [24, 73, 80, 78] []).wf idle.params = true ∧
    beValue [0x4D, 0x61, 0x6E, 0x20] = value85 ([24, 73, 80, 78] ++ [61]) ∧ 2 ^ 32 ≤ value85 ([84, 84, 84, 84] ++ [84]) ∧
    (A85Dec.mk [] 0 [84, 84, 84, 84] []).wf idle.params = true ∧ (A85Dec.mk [] 0 [24, 73, 80] []).wf idle.params = true ∧
    ([24, 73, 80] : List Nat).length < 4 ∧ ([24] : List Nat).length = 1 ∧
    2 ^ 32 ≤ value85 ([84, 84] ++ List.replicate (5 - ([84, 84] : List Nat).length) 84) ∧
    (A85Dec.mk [] 0 [24, 73, 80, 78] (List.replicate 97 0)).wf idle.params = true ∧
    value85 ([24, 73, 80, 78] ++ [61]) < 2 ^ 32 ∧ idle.params.outCapacity < 97 + 4 ∧
    (A85Dec.mk [] 0 [] (List.replicate 97 0)).wf idle.params = true ∧
    (A85Dec.mk [] 0 [24, 73] (List.replicate 100 0)).wf idle.params = true ∧
    value85 ([24, 73] ++ List.replicate (5 - ([24, 73] : List Nat).length) 84) < 2 ^ 32 ∧ idle.params.outCapacity < 100 + (2 - 1) ∧
    beValue [0x4D, 0x61, 0x6E, 0x37] = value85 ([24, 73, 80, 78] ++ List.replicate (5 - ([24, 73, 80, 78] : List Nat).length) 84) := by
  decide

theorem witness_BytesAfterTheEndAreNotRead :
    (statusOf (.lzwDec [0x00, 0x03, 0x02] 0) idle, statusOf (.sbUnpack [0x00]) idle,
      statusOf (.pbDec [0x00, 0x05] 1) idle, statusOf (.cvDec [0x05, 0x00] 1) idle,
      statusOf (.a85Dec [0x7E, 0x3E]) idle) = (some .ok, some .ok, some .ok, some .ok, some .ok) := by decide

theorem witness_StepRunsTheNextCommand :
    idle.active = none ∧ idle.queue = [] ∧ decode (.command 0x10 [.num 1]) = .ok (.bwInit 1) ∧
    decode (.command 0x10 []) = .error .operands ∧ Session.bitWriter = sessionOfOpcode 0x10 ∧ idle.allocFails = false ∧
    { idle with allocDraws := [true] }.active = none ∧ { idle with allocDraws := [true] }.allocFails = true := by decide

theorem witness_StepRunsTheNextToken :
    (atCode .line (HufDec.fresh [0x98] 8) true).active = some (.hufDec .line (.code true)) ∧
    ¬ ((HufDec.fresh [0x98] 8).row.length = (HufDec.fresh [0x98] 8).columns ∧ padding (HufDec.fresh [0x98] 8).br.bits) ∧
    ({ nine with row := whites 10 }.row.length = { nine with row := whites 10 }.columns ∧ padding nine.br.bits ∧
      nine.br.order = .msb) ∧
    decode (.huf .white (HufDec.fresh [0x98] 8).br.bits) = .ok .wTerm8 ∧
    9 ≤ (LzwDec.fresh [0x00, 0x03, 0x02] 0).br.bits.length ∧
    decode (.lzw false 258 (lsbValue ((LzwDec.fresh [0x00, 0x03, 0x02] 0).br.bits.take 9))) = .ok .lzwClear ∧
    ([3, 1, 2, 3, 0] : List Byte)[0]? = some 3 ∧ decode (.subBlock 3) = .ok (.sbLength 3) ∧
    decode (.packBits 3) = .ok (.pbLiteral 3) ∧ decode (.countValue idle.params.sampleBytes ([5, 2].drop 0)) = .ok (.cvPacket [5] 2) ∧
    decode (.ascii85 0x7A ([0x7A, 0x7E] : List Byte)[1]?) = .ok .a85Zero := by decide

/-- The reads that fail: 11 zero bits (HD15: inside a code), an input that is used up, and a decoder at its total. -/
theorem witness_StepRunsTheNextToken_failing :
    nine.br.order = .msb ∧
    ¬ ({ nine with br := ⟨.msb, [0x00, 0x00], 5⟩ }.row.length = nine.columns ∧ padding (BitReader.mk .msb [0x00, 0x00] 5).bits) ∧
    (∀ e ∈ codeSet nine.color, ¬ e.bits <+: (BitReader.mk .msb [0x00, 0x00] 5).bits) ∧
    (BitReader.mk .lsb [0x00, 0x83] 9).bits.length < (LzwDec.fresh [0x00, 0x83] 1).width ∧
    (BitReader.mk .lsb [0x00, 0x83] 9).order = .lsb ∧
    ([0x01, 0x07] : List Byte).length ≤ 2 ∧ 0 < 1 ∧ ([0x05] : List Byte).length ≤ 0 + idle.params.sampleBytes ∧ 1 ≤ 1 := by
  decide

/-- Z9: the input ends before `END_CODE`; A17: before `~>`. -/
theorem test_step_input_ends :
    ((nextOf (step (inside (.lzwDec { LzwDec.fresh [0x00, 0x83] 1 with br := ⟨.lsb, [0x00, 0x83], 9⟩ })))).map fun t =>
        t.status.lzwDec,
      (nextOf (step (inside (.a85Dec ⟨[0x39], 1, [24], []⟩)))).map fun t => t.status.a85Dec,
      (nextOf (step (atCode .line { nine with br := ⟨.msb, [0x00, 0x00], 5⟩ } false))).map fun t =>
        (t.status.hufDec, t.hufDec.isSome)) =
      (some (some .corruptBitstream), some (some .corruptBitstream), some (some .corruptBitstream, false)) := by decide

theorem witness_DecodeOfEncodeIsTheInstruction : WellFormed ⟨1, 100⟩ (.lzwString 258) = true ∧ WellFormed ⟨8, 0⟩ .wTerm0 = true := by
  decide

theorem witness_ReservedOpcodesAndBadOperandsAreRefused :
    idle.active = none ∧ idle.ready = true ∧ isOperation (.bwWrite 1 17) = true ∧
    WellFormed idle.params (.bwWrite 1 17) = false ∧ 65535 < 65536 ∧ 255 < 256 := by decide

/-- Also the witness of ADrawnAllocationFailureEndsAnyOperation. -/
theorem witness_EveryOperationEndsWithOneStatus :
    idle.active = none ∧ isOperation (.lzwDec [1, 2] 3) = true ∧
    { idle with allocDraws := [true] }.active = none ∧ { idle with allocDraws := [true] }.allocFails = true := by decide

theorem witness_ErrorsArePrecise :
    ∃ t, idle.active = none ∧ isOperation (.sbUnpack []) = true ∧ exec (.sbUnpack []) idle = .next t ∧
      t.status.get (sessionOf (.sbUnpack [])) = some .corruptBitstream ∧ Status.corruptBitstream.isError = true :=
  ⟨_, rfl, rfl, rfl, rfl, rfl⟩

theorem witness_RefusedSchedules :
    (encodeCommand .rmGet).isSome = true ∧ (inside (.sbUnpack ⟨[], 0, []⟩)).active = some (.sbUnpack ⟨[], 0, []⟩) ∧
    encodeCommand .eol = none ∧ idle.active = none ∧ codeEntry .wTerm3 = some (termCode .white 3) ∧
    nine.color = .black ∧ (termCode .white 3).cls = .terminatingWhite := by decide

/-- Also the witness of OutputsStayWithinCapacity and InputsAreReadForwardAndNeverWritten. -/
theorem witness_EachInstructionWritesOnlyItsOwnState :
    ∃ t, exec (.sbPack [7]) idle = .next t ∧ t.result = .bytes [1, 7, 0] ∧ idle.wf = true :=
  ⟨_, rfl, rfl, rfl⟩

theorem witness_InputsAreReadForwardAndNeverWritten :
    ∃ t, { decoderOn 8 [0x98] with queue := [⟨0x25, []⟩] }.wf = true ∧
      step { decoderOn 8 [0x98] with queue := [⟨0x25, []⟩] } = .next t ∧ t.hufDec.isSome = true ∧ (0x25 : Byte) ≠ 0x24 :=
  ⟨_, rfl, rfl, rfl, by decide⟩

theorem witness_AnOperationIsItsTurns :
    idle.ready = true ∧ openedContext (.pbDec [0x00, 0x05] 1) idle = some (.pbDec ⟨[0x00, 0x05], 0, 1, 0, []⟩) ∧
    (openedContext (.lzwEnc [1]) idle).isSome = true ∧ (openedContext .hufDecLine (decoderOn 8 [])).isSome = true := by decide

theorem witness_StepKeepsRegistersInRange :
    { idle with queue := [⟨0x10, [.num 1]⟩] }.wf = true ∧ (nextOf (step { idle with queue := [⟨0x10, [.num 1]⟩] })).isSome = true := by
  decide

end Sys2Proof.Tests
end

section
/-! O54, the frame of every instruction. `Confined u s t` says that `t` differs from `s` only in what belongs to the session `u`
and in the operation in progress and its result; it is reflexive and transitive and holds of every update that the
shared operations make, so the confinement of an operation is read off its body. `Confines u s a` says so of an answer, and
adds that an operation that stays in progress has written neither a status nor a result. -/

namespace Sys2Proof.Machine

/-! ## Confined states -/

/-- R6, R39, R56: `t` is `s` but for the registers and the status of the session `u`, the operation in progress and the
result. The run-model register goes with the operations of no session. -/
structure Confined (u : Session) (s t : State) : Prop where
  params : t.params = s.params
  queue : t.queue = s.queue
  allocDraws : t.allocDraws = s.allocDraws
  rm : u ≠ .none → t.rm = s.rm
  bw : u ≠ .bitWriter → t.bw = s.bw
  br : u ≠ .bitReader → t.br = s.br
  hufEnc : u ≠ .hufEnc → t.hufEnc = s.hufEnc
  hufDec : u ≠ .hufDec → t.hufDec = s.hufDec
  a85Enc : u ≠ .a85Enc → t.a85Enc = s.a85Enc
  status : ∀ v, v ≠ u → t.status.get v = s.status.get v

namespace Confined

variable {u : Session} {s t v : State}

theorem refl (u : Session) (s : State) : Confined u s s :=
  ⟨rfl, rfl, rfl, fun _ => rfl, fun _ => rfl, fun _ => rfl, fun _ => rfl, fun _ => rfl, fun _ => rfl, fun _ _ => rfl⟩

theorem trans (h : Confined u s t) (k : Confined u t v) : Confined u s v where
  params := k.params.trans h.params
  queue := k.queue.trans h.queue
  allocDraws := k.allocDraws.trans h.allocDraws
  rm hu := (k.rm hu).trans (h.rm hu)
  bw hu := (k.bw hu).trans (h.bw hu)
  br hu := (k.br hu).trans (h.br hu)
  hufEnc hu := (k.hufEnc hu).trans (h.hufEnc hu)
  hufDec hu := (k.hufDec hu).trans (h.hufDec hu)
  a85Enc hu := (k.a85Enc hu).trans (h.a85Enc hu)
  status w hw := (k.status w hw).trans (h.status w hw)

/-! ### The updates of the shared operations -/

theorem openSession (u : Session) (s : State) : Confined u s (s.openSession u) := by
  constructor <;> simp +contextual

theorem finish (u : Session) (s : State) (st : Status) (r : Result) : Confined u s (s.finish u st r) := by
  constructor <;> simp +contextual

theorem close (u : Session) (s : State) : Confined u s (s.close u) := by
  constructor <;> simp +contextual

theorem raise (u : Session) (s : State) (e : ErrorKind) : Confined u s (s.raise u e) := by
  by_cases he : e = .invalidOperand
  · rw [he, State.raise_invalidOperand]; exact finish u s _ _
  · rw [State.raise_of_ne s u e he]; exact (close u s).trans (finish u _ _ _)

/-! ### The registers of a session, and the operation in progress -/

theorem set_rm (s : State) (x : Option Run) : Confined .none s { s with rm := x } := by
  constructor <;> simp

theorem set_bw (s : State) (x : Option BitWriter) : Confined .bitWriter s { s with bw := x } := by
  constructor <;> simp

theorem set_br (s : State) (x : Option BitReader) : Confined .bitReader s { s with br := x } := by
  constructor <;> simp

theorem set_hufEnc (s : State) (x : Option HufEnc) : Confined .hufEnc s { s with hufEnc := x } := by
  constructor <;> simp

theorem set_hufDec (s : State) (x : Option HufDec) : Confined .hufDec s { s with hufDec := x } := by
  constructor <;> simp

theorem set_a85Enc (s : State) (x : Option A85Enc) : Confined .a85Enc s { s with a85Enc := x } := by
  constructor <;> simp

theorem set_active (u : Session) (s : State) (x : Option Active) : Confined u s { s with active := x } := by
  constructor <;> simp

end Confined

/-! ## Confining answers -/

/-- A next state is confined to the session, and while an operation stays in progress the statuses and the result are as they
were. -/
def Confines (u : Session) (s : State) (a : Answer) : Prop :=
  ∀ t, a = .next t → Confined u s t ∧ (t.active ≠ none → t.status = s.status ∧ t.result = s.result)

namespace Confines

variable {u : Session} {s s' : State}

theorem refused (r : Refusal) : Confines u s (.refused r) := fun _ h => by cases h

theorem fault (f : Fault) : Confines u s (.fault f) := fun _ h => by cases h

/-- An operation that ends in a confined state. -/
theorem finish (h : Confined u s s') (st : Status) (r : Result) : Confines u s (.next (s'.finish u st r)) := by
  intro t ht
  cases ht
  exact ⟨h.trans (.finish u s' st r), fun ha => absurd rfl ha⟩

theorem raise (h : Confined u s s') (e : ErrorKind) : Confines u s (.next (s'.raise u e)) := by
  intro t ht
  cases ht
  exact ⟨h.trans (.raise u s' e), fun ha => absurd rfl ha⟩

/-! ### Operations with one turn -/

theorem complete_pure (h : Confined u s s') (st : Status) (r : Result) :
    Confines u s (s.complete u (pure (s'.finish u st r))) := finish h st r

theorem complete_error (e : ErrorKind) : Confines u s (s.complete u (.error e)) := raise (.refl u s) e

/-- A check or a computation that comes before the effect only answers a value or raises. -/
theorem complete_bind {α : Type} {x : Except ErrorKind α} {f : α → Except ErrorKind State}
    (h : ∀ a, Confines u s (s.complete u (f a))) : Confines u s (s.complete u (x >>= f)) := by
  cases x with
  | ok a => exact h a
  | error e => exact complete_error e

/-! ### Turns -/

/-- A turn of an operation in progress. -/
theorem settle {α : Type} (mk : α → Active) (p : Progress α) : Confines u s (Machine.settle u mk s p) := by
  cases p with
  | more c => rintro t ⟨⟩; exact ⟨.set_active u s _, fun _ => ⟨rfl, rfl⟩⟩
  | done c st r => exact finish (.refl u s) st r
  | raised e => exact raise (.refl u s) e
  | stuck f => exact fault f

/-- The whole of a single-operation unit's loop, which opens the session and never stops in the middle. -/
theorem settle_opened {α : Type} (mk : α → Active) {p : Progress α} (hp : ∀ c, p ≠ .more c) :
    Confines u s (Machine.settle u mk (s.openSession u) p) := by
  cases p with
  | more c => exact absurd rfl (hp c)
  | done c st r => exact finish (.openSession u s) st r
  | raised e => exact raise (.openSession u s) e
  | stuck f => exact fault f

/-- A turn of the Huffman decoder, whose page closes the session when it returns. -/
theorem settleHuf (p : Progress HufRun) : Confines .hufDec s (Machine.settleHuf s p) := by
  cases p with
  | more r => rintro t ⟨⟩; exact ⟨(Confined.set_hufDec s (some r.dec)).trans (.set_active _ _ _), fun _ => ⟨rfl, rfl⟩⟩
  | done r st res =>
    simp only [Machine.settleHuf]
    split
    · exact finish (.set_hufDec s _) st res
    · exact finish (.close _ s) st res
  | raised e => exact raise (.refl _ s) e
  | stuck f => exact fault f

/-! ### The opening of an operation -/

/-- R282: an operation confines what its body does, from the state in which its draw is used up. -/
theorem operation {body : State → Answer} (h : ∀ s, Confines u s (body s)) :
    Confines u s.popDraw (Machine.operation u s body) := by
  obtain ⟨a, -, hr⟩ | ⟨-, -, hr⟩ | ⟨-, hr⟩ := operation_cases u s body <;> rw [hr]
  · exact refused _
  · exact raise (.refl u _) _
  · exact h s.popDraw

end Confines

/-! ## The operations of R71 -/

section

variable (s : State)

theorem execRmSet_confines (sample : PixelSample) (count : Nat) : Confines .none s.popDraw (execRmSet sample count s) :=
  .operation fun s => .complete_bind fun _ => .complete_pure (.set_rm s _) _ _

theorem execRmGet_confines : Confines .none s.popDraw (execRmGet s) :=
  .operation fun s => .complete_bind fun _ => .complete_pure (.refl _ s) _ _

theorem execBwInit_confines (order : Nat) : Confines .bitWriter s.popDraw (execBwInit order s) :=
  .operation fun s => .complete_bind fun _ => .complete_pure ((Confined.openSession _ s).trans (.set_bw _ _)) _ _

theorem execBwWrite_confines (value : Word16) (width : Nat) :
    Confines .bitWriter s.popDraw (execBwWrite value width s) :=
  .operation fun s => .complete_bind fun _ => .complete_bind fun _ => .complete_bind fun _ => .complete_pure (.set_bw s _) _ _

theorem execBwFlush_confines : Confines .bitWriter s.popDraw (execBwFlush s) :=
  .operation fun s => .complete_bind fun _ => .complete_bind fun _ => .complete_pure (.close _ s) _ _

theorem execBrInit_confines (order : Nat) (input : List Byte) :
    Confines .bitReader s.popDraw (execBrInit order input s) :=
  .operation fun s => .complete_bind fun _ => .complete_pure ((Confined.openSession _ s).trans (.set_br _ _)) _ _

theorem execBrRead_confines (width : Nat) : Confines .bitReader s.popDraw (execBrRead width s) := by
  refine .operation fun s => .complete_bind fun _ => .complete_bind fun r => ?_
  cases r.readBits width with
  | some p => exact .complete_pure (.set_br s _) _ _
  | none => exact .complete_pure (.refl _ s) _ _

theorem execHufEncBegin_confines (columns : Nat) : Confines .hufEnc s.popDraw (execHufEncBegin columns s) :=
  .operation fun s => .complete_bind fun _ => .complete_pure ((Confined.openSession _ s).trans (.set_hufEnc _ _)) _ _

theorem execHufEncLine_confines (line : Line) : Confines .hufEnc s.popDraw (execHufEncLine line s) := by
  refine .operation fun s => .complete_bind fun _ => .complete_bind fun h => ?_
  split
  · exact .complete_error _
  · exact .complete_bind fun _ => .complete_pure (.set_hufEnc s _) _ _

theorem execHufEncEnd_confines : Confines .hufEnc s.popDraw (execHufEncEnd s) :=
  .operation fun s => .complete_bind fun _ => .complete_bind fun _ => .complete_bind fun _ => .complete_pure (.close _ s) _ _

theorem execHufDecBegin_confines (input : List Byte) (columns : Nat) :
    Confines .hufDec s.popDraw (execHufDecBegin input columns s) :=
  .operation fun s => .complete_bind fun _ => .complete_pure ((Confined.openSession _ s).trans (.set_hufDec _ _)) _ _

theorem execHufDecLine_confines : Confines .hufDec s.popDraw (execHufDecLine s) := by
  refine .operation fun s => ?_
  cases s.hufDec with
  | none => exact .raise (.refl _ s) _
  | some d => exact .settleHuf _

theorem execHufDecPage_confines (rows : Nat) : Confines .hufDec s.popDraw (execHufDecPage rows s) := by
  refine .operation fun s => ?_
  cases s.hufDec with
  | none => exact .raise (.refl _ s) _
  | some d => exact .settleHuf _

theorem LzwEnc.run_ne_more (p : Params) (input : List Byte) (c : LzwEnc) : LzwEnc.run p input ≠ .more c := by
  unfold LzwEnc.run
  cases LzwEnc.start p input with
  | ok d => exact runLoop_ne_more _ d c
  | error e => exact nofun

theorem execLzwEnc_confines (input : List Byte) : Confines .lzwEnc s.popDraw (execLzwEnc input s) :=
  .operation fun s => .settle_opened _ (LzwEnc.run_ne_more s.params input)

theorem execLzwDec_confines (input : List Byte) (expected : Nat) :
    Confines .lzwDec s.popDraw (execLzwDec input expected s) :=
  .operation fun _ => .settle_opened _ (runLoop_ne_more _ _)

theorem execSbPack_confines (input : List Byte) : Confines .sbPack s.popDraw (execSbPack input s) :=
  .operation fun _ => .settle_opened _ (runLoop_ne_more _ _)

theorem execSbUnpack_confines (input : List Byte) : Confines .sbUnpack s.popDraw (execSbUnpack input s) :=
  .operation fun _ => .settle_opened _ (runLoop_ne_more _ _)

theorem execPbEnc_confines (input : List Byte) : Confines .pbEnc s.popDraw (execPbEnc input s) :=
  .operation fun _ => .settle_opened _ (runLoop_ne_more _ _)

theorem execPbDec_confines (input : List Byte) (total : Nat) : Confines .pbDec s.popDraw (execPbDec input total s) :=
  .operation fun _ => .settle_opened _ (runLoop_ne_more _ _)

theorem execCvEnc_confines (runs : List CvRun) (total : Nat) : Confines .cvEnc s.popDraw (execCvEnc runs total s) := by
  refine .operation fun s => ?_
  split
  · exact .raise (.refl _ s) _
  split
  · exact .raise (.refl _ s) _
  · exact .settle_opened _ (runLoop_ne_more _ _)

theorem execCvDec_confines (input : List Byte) (total : Nat) : Confines .cvDec s.popDraw (execCvDec input total s) :=
  .operation fun _ => .settle_opened _ (runLoop_ne_more _ _)

theorem execA85EncByte_confines (b : Byte) : Confines .a85Enc s.popDraw (execA85EncByte b s) := by
  refine .operation fun s => .complete_bind fun _ => .complete_pure (.trans ?_ (.set_a85Enc _ _)) _ _
  split
  · exact .openSession _ s
  · exact .refl _ s

theorem execA85EncEnd_confines : Confines .a85Enc s.popDraw (execA85EncEnd s) :=
  .operation fun s => .complete_bind fun _ => .complete_pure (.close _ s) _ _

theorem execA85Dec_confines (input : List Byte) : Confines .a85Dec s.popDraw (execA85Dec input s) :=
  .operation fun _ => .settle_opened _ (runLoop_ne_more _ _)

/-! ## The stream tokens and the reserved opcodes -/

theorem acceptCode_confines (e : Entry) : Confines .hufDec s (acceptCode e s) := by
  unfold acceptCode
  split
  · split
    · exact .settleHuf _
    · exact .refused _
  · exact .refused _

theorem onLzwDec_confines (ok : LzwDec → Bool) (f : LzwDec → Progress LzwDec) : Confines .lzwDec s (onLzwDec s ok f) := by
  unfold onLzwDec
  split
  · split
    · exact .settle _ _
    · exact .refused _
  · exact .refused _

theorem onSbUnpack_confines (f : ByteCoder → Progress ByteCoder) : Confines .sbUnpack s (onSbUnpack s f) := by
  unfold onSbUnpack
  split
  · exact .settle _ _
  · exact .refused _

theorem onPbDec_confines (f : PbDec → Progress PbDec) : Confines .pbDec s (onPbDec s f) := by
  unfold onPbDec
  split
  · exact .settle _ _
  · exact .refused _

theorem onA85Dec_confines (f : A85Dec → Progress A85Dec) : Confines .a85Dec s (onA85Dec s f) := by
  unfold onA85Dec
  split
  · exact .settle _ _
  · exact .refused _

theorem execCvPacket_confines (value : List Byte) (k : Byte) : Confines .cvDec s (execCvPacket value k s) := by
  unfold execCvPacket
  split
  · split
    · exact .settle _ _
    · exact .refused _
  · exact .refused _

theorem execReservedOpcode_confines (b : Byte) : Confines .none s (execReservedOpcode b s) := by
  unfold execReservedOpcode
  split
  · exact .refused _
  · exact .raise (.refl _ s) _

end

/-! ## All instructions -/

/-- The state an instruction works from: an operation uses up its draw first (R282), any other instruction takes none. -/
def State.drawnFor (s : State) (i : Instr) : State :=
  { s with allocDraws := if isOperation i = true then s.allocDraws.tail else s.allocDraws }

/-- R39, R56: each of the 239 instructions writes only what belongs to its own session. -/
theorem exec_confines (i : Instr) (s : State) : Confines (sessionOf i) (s.drawnFor i) (exec i s) := by
  cases i with
  | rmSet sample count => exact execRmSet_confines s sample count
  | rmGet => exact execRmGet_confines s
  | bwInit order => exact execBwInit_confines s order
  | bwWrite value width => exact execBwWrite_confines s value width
  | bwFlush => exact execBwFlush_confines s
  | brInit order input => exact execBrInit_confines s order input
  | brRead width => exact execBrRead_confines s width
  | hufEncBegin columns => exact execHufEncBegin_confines s columns
  | hufEncLine line => exact execHufEncLine_confines s line
  | hufEncEnd => exact execHufEncEnd_confines s
  | hufDecBegin input columns => exact execHufDecBegin_confines s input columns
  | hufDecLine => exact execHufDecLine_confines s
  | hufDecPage rows => exact execHufDecPage_confines s rows
  | lzwEnc input => exact execLzwEnc_confines s input
  | lzwDec input expected => exact execLzwDec_confines s input expected
  | sbPack input => exact execSbPack_confines s input
  | sbUnpack input => exact execSbUnpack_confines s input
  | pbEnc input => exact execPbEnc_confines s input
  | pbDec input total => exact execPbDec_confines s input total
  | cvEnc runs total => exact execCvEnc_confines s runs total
  | cvDec input total => exact execCvDec_confines s input total
  | a85EncByte b => exact execA85EncByte_confines s b
  | a85EncEnd => exact execA85EncEnd_confines s
  | a85Dec input => exact execA85Dec_confines s input
  | reservedOpcode b => exact execReservedOpcode_confines s b
  | lzwLiteral | lzwClear | lzwEnd | lzwString | lzwNext | lzwIllegal => exact onLzwDec_confines s _ _
  | sbLength | sbTerminator => exact onSbUnpack_confines s _
  | pbLiteral | pbIllegal80 | pbRepeat => exact onPbDec_confines s _
  | cvPacket value k => exact execCvPacket_confines s value k
  | a85Digit | a85Zero | a85End | a85Linebreak | a85Whitespace | a85Illegal => exact onA85Dec_confines s _
  | _ => rw [exec_code rfl]; exact acceptCode_confines s _

/-! ## The run-model register -/

theorem execRmGet_rm {s t : State} (h : execRmGet s = .next t) : t.rm = s.rm := by
  obtain ⟨a, -, hr⟩ | ⟨-, -, hr⟩ | ⟨-, hr⟩ := operation_cases .none s _ <;> rw [execRmGet, hr] at h
  · cases h
  · cases h; simp
  · cases hrm : s.rm with
    | none => rw [State.popDraw_rm, hrm] at h; cases h; simp [hrm]
    | some r => rw [State.popDraw_rm, hrm] at h; cases h; exact hrm

theorem execReservedOpcode_rm {b : Byte} {s t : State} (h : execReservedOpcode b s = .next t) : t.rm = s.rm := by
  unfold execReservedOpcode at h
  split at h <;> cases h
  exact s.raise_rm _ _

/-- The instructions of no session. -/
theorem sessionOf_eq_none {i : Instr} (h : sessionOf i = .none) :
    (∃ p n, i = .rmSet p n) ∨ i = .rmGet ∨ ∃ b, i = .reservedOpcode b := by
  cases i with
  | rmSet p n => exact .inl ⟨p, n, rfl⟩
  | rmGet => exact .inr (.inl rfl)
  | reservedOpcode b => exact .inr (.inr ⟨b, rfl⟩)
  | _ => cases h

/-- R20: only `RM_SET` writes the run-model register. -/
theorem exec_rm {i : Instr} {s t : State} (h : exec i s = .next t) (hi : ∀ p n, i ≠ .rmSet p n) : t.rm = s.rm := by
  by_cases hu : sessionOf i = .none
  · obtain ⟨p, n, rfl⟩ | rfl | ⟨b, rfl⟩ := sessionOf_eq_none hu
    · exact absurd rfl (hi p n)
    · exact execRmGet_rm h
    · exact execReservedOpcode_rm (b := b) h
  · obtain ⟨hc, -⟩ := exec_confines i s t h
    exact hc.rm hu

/-- Settles O54: every instruction is confined to its session (`exec_confines`), and of those of no session only `RM_SET`
writes the run-model register (`exec_rm`). -/
theorem eachInstructionWritesOnlyItsOwnState : Obligations.EachInstructionWritesOnlyItsOwnState := by
  intro s t i h
  obtain ⟨hc, hactive⟩ := exec_confines i s t h
  exact ⟨hc.params, hc.queue, exec_rm h, hc.bw, hc.br, hc.hufEnc, hc.hufDec, hc.a85Enc, hc.status, hc.allocDraws, hactive⟩

end Sys2Proof.Machine
end

section
/-! O58, O55 and O26: the ranges of the registers. `State.wf` is taken apart into the sessions and the operation in progress;
each unit has one lemma that its turn keeps its context in range, and a step inside an operation is one turn of its loop. -/

namespace Sys2Proof.Machine

/-! ## What a turn leaves -/

/-- Every context that a turn hands on, or returns with, has the property. -/
def Progress.All {α : Type} (P : α → Prop) : Progress α → Prop
  | .more c => P c
  | .done c _ _ => P c
  | .raised _ => True
  | .stuck _ => True

namespace Progress

variable {α β : Type} {P Q : α → Prop}

theorem All.imp {p : Progress α} (h : p.All P) (hPQ : ∀ c, P c → Q c) : p.All Q := by
  cases p with
  | more c => exact hPQ c h
  | done c st r => exact hPQ c h
  | raised e => trivial
  | stuck f => trivial

theorem all_ofExcept {k : β → Progress α} {x : Except ErrorKind β} (h : ∀ b, x = .ok b → (k b).All P) :
    (Progress.ofExcept k x).All P := by
  cases x with
  | ok b => exact h b rfl
  | error e => trivial

end Progress

/-- What every turn keeps holds of the context a loop returns with. -/
theorem runLoop_all {α : Type} {turn : α → Progress α} {I : α → Prop} (hturn : ∀ c, I c → (turn c).All I) (fuel : Nat) (c : α)
    (hc : I c) : (runLoop turn fuel c).All I := by
  induction fuel generalizing c with
  | zero => trivial
  | succ n ih =>
    have ht := hturn c hc
    cases h : turn c with
    | more c' => rw [runLoop_more h]; rw [h] at ht; exact ih c' ht
    | done c' st r => rw [runLoop_done h]; rw [h] at ht; exact ht
    | raised e => rw [runLoop_raised h]; trivial
    | stuck f => simp only [runLoop, h]; trivial

/-! ## Checks -/

theorem require_ok {b : Bool} {x : Unit} (h : require b = .ok x) : b = true := by
  cases b with
  | true => rfl
  | false => cases h

theorem requireSession_ok {α : Type} {o : Option α} {c : α} (h : requireSession o = .ok c) : o = some c := by
  cases o with
  | some d => cases h; rfl
  | none => cases h

/-- A computation of two parts succeeds where both do. -/
theorem bind_ok {ε α β : Type} {x : Except ε α} {f : α → Except ε β} {b : β} (h : (x >>= f) = .ok b) :
    ∃ a, x = .ok a ∧ f a = .ok b := by
  cases x with
  | ok a => exact ⟨a, rfl, h⟩
  | error e => cases h

/-! ## The bit writer -/

theorem BitWriter.wf_iff {p : Params} {b : BitWriter} :
    b.wf p = true ↔ b.nbits < 8 ∧ b.out.length ≤ p.outCapacity ∧
      (b.order = .msb → b.acc.toNat % 2 ^ (8 - b.nbits) = 0) ∧ (b.order = .lsb → b.acc.toNat < 2 ^ b.nbits) := by
  unfold BitWriter.wf
  cases b.order <;> simp [and_assoc]

theorem BitWriter.fresh_wf (p : Params) (o : BitOrder) : (BitWriter.fresh o).wf p = true := by
  rw [BitWriter.wf_iff]
  simp [BitWriter.fresh]

/-- R26: the number `acc` holds after a bit is placed at a position. -/
theorem toNat_or_bit (acc : Byte) (x : Bool) (n : Nat) :
    (acc ||| (BitVec.ofNat 8 x.toNat <<< n)).toNat = acc.toNat ||| (x.toNat * 2 ^ n % 2 ^ 8) := by
  cases x <;> simp [Nat.shiftLeft_eq]

/-- R26, MSB-first: the positions below the one just filled stay 0. -/
theorem or_bit_mod_msb {acc n : Nat} (hn : n < 7) (h : acc % 2 ^ (8 - n) = 0) (x : Nat) :
    (acc ||| (x * 2 ^ (7 - n) % 2 ^ 8)) % 2 ^ (8 - (n + 1)) = 0 := by
  have hacc : acc % 2 ^ (7 - n) = 0 :=
    Nat.mod_eq_zero_of_dvd ((Nat.pow_dvd_pow 2 (by omega)).trans (Nat.dvd_of_mod_eq_zero h))
  have hbit : x * 2 ^ (7 - n) % 2 ^ 8 % 2 ^ (7 - n) = 0 := by
    rw [Nat.mod_mod_of_dvd _ (Nat.pow_dvd_pow 2 (by omega))]; exact Nat.mul_mod_left _ _
  rw [show 8 - (n + 1) = 7 - n by omega, Nat.or_mod_two_pow, hacc, hbit]
  rfl

/-- R26, LSB-first: the positions above the one just filled stay 0. -/
theorem or_bit_lt_lsb {acc n : Nat} (h : acc < 2 ^ n) (x : Bool) : acc ||| (x.toNat * 2 ^ n % 2 ^ 8) < 2 ^ (n + 1) := by
  have hpow : 2 ^ n < 2 ^ (n + 1) := Nat.pow_lt_pow_right (by decide) (Nat.lt_succ_self n)
  refine Nat.or_lt_two_pow (h.trans hpow) ((Nat.mod_le _ _).trans_lt ?_)
  cases x
  · simp
  · simpa using hpow

theorem BitWriter.putBit_wf {p : Params} {b b' : BitWriter} {x : Bool} (hb : b.wf p = true)
    (h : b.putBit p.outCapacity x = .ok b') : b'.wf p = true := by
  rw [BitWriter.wf_iff] at hb ⊢
  obtain ⟨hn, hout, hmsb, hlsb⟩ := hb
  obtain ⟨ho, ⟨-, hlt, hn', hacc', hout'⟩ | ⟨h8, hn', hout', hacc'⟩⟩ := BitWriter.putBit_ok h
  · simp [hn', hacc', hout']; omega
  · rw [ho, hn', hout', hacc', toNat_or_bit]
    refine ⟨by omega, hout, fun hord => ?_, fun hord => ?_⟩
    · rw [BitWriter.pos, hord]; exact or_bit_mod_msb (by omega) (hmsb hord) _
    · rw [BitWriter.pos, hord]; exact or_bit_lt_lsb (hlsb hord) x

theorem BitWriter.putBits_wf {p : Params} {b b' : BitWriter} {xs : List Bool} (hb : b.wf p = true)
    (h : b.putBits p.outCapacity xs = .ok b') : b'.wf p = true ∧ b'.order = b.order := by
  induction xs generalizing b with
  | nil => cases h; exact ⟨hb, rfl⟩
  | cons x xs ih =>
    simp only [BitWriter.putBits] at h
    split at h
    · rename_i b₁ h₁
      obtain ⟨hb', ho⟩ := ih (BitWriter.putBit_wf hb h₁) h
      exact ⟨hb', ho.trans (BitWriter.putBit_ok h₁).1⟩
    · cases h

/-- R26: a write keeps the writer in range, and its order. -/
theorem BitWriter.writeBits_wf {p : Params} {b b' : BitWriter} {value width : Nat} (hb : b.wf p = true)
    (h : b.writeBits p.outCapacity value width = .ok b') : b'.wf p = true ∧ b'.order = b.order :=
  BitWriter.putBits_wf hb h

/-! ## The bit reader -/

theorem BitReader.wf_iff {r : BitReader} : r.wf = true ↔ r.bitpos ≤ 8 * r.input.length := by simp [BitReader.wf]

theorem BitReader.readBits_wf {r r' : BitReader} {width v : Nat} (hr : r.wf = true) (h : r.readBits width = some (v, r')) :
    r'.wf = true := by
  obtain ⟨hle, -, rfl⟩ := BitReader.readBits_some h
  rw [BitReader.wf_iff] at hr ⊢
  simp only [BitReader.remaining] at hle ⊢
  omega

/-! ## The byte coders -/

theorem ByteCoder.wf_iff {p : Params} {c : ByteCoder} :
    c.wf p = true ↔ c.i ≤ c.input.length ∧ c.out.length ≤ p.outCapacity := by simp [ByteCoder.wf]

theorem ByteCoder.emitAt_wf {p : Params} {c c' : ByteCoder} {bytes : List Byte} {i : Nat} (hc : c.wf p = true)
    (hi : i ≤ c.input.length) (h : c.emitAt p bytes i = .ok c') : c'.wf p = true := by
  rw [ByteCoder.wf_iff] at hc ⊢
  unfold ByteCoder.emitAt at h
  split at h
  · rename_i out hout
    cases h
    exact ⟨hi, (emitAll_ok hout).2 hc.2⟩
  · cases h

theorem sbPackTurn_all {p : Params} {c : ByteCoder} (hc : c.wf p = true) : (sbPackTurn p c).All (·.wf p = true) := by
  unfold sbPackTurn
  split
  · exact Progress.all_ofExcept fun c' h => ByteCoder.emitAt_wf hc (by omega) h
  · exact Progress.all_ofExcept fun _ _ => hc

theorem sbAccept_all {p : Params} {c : ByteCoder} {t : SbTok} (hc : c.wf p = true) :
    (sbAccept p c t).All (·.wf p = true) := by
  cases t with
  | length len =>
    simp only [sbAccept, sbData]
    split
    · trivial
    · exact Progress.all_ofExcept fun c' h => ByteCoder.emitAt_wf hc (by omega) h
  | terminator => exact hc

theorem sbUnpackTurn_all {p : Params} {c : ByteCoder} (hc : c.wf p = true) : (sbUnpackTurn p c).All (·.wf p = true) := by
  unfold sbUnpackTurn sbTurn
  split
  · rename_i b hb
    have hlt : c.i < c.input.length := (List.getElem?_eq_some_iff.1 hb).1
    exact sbAccept_all (ByteCoder.wf_iff.2 ⟨hlt, (ByteCoder.wf_iff.1 hc).2⟩)
  · trivial

theorem pbRunLength_le (l : List Byte) : pbRunLength l ≤ l.length := by
  cases l with
  | nil => exact Nat.le_refl _
  | cons b bs =>
    have hw := (List.takeWhile_prefix (fun x => x == b) (l := bs.take (pbMaxRepeat - 1))).length_le
    have ht := List.length_take_le' (pbMaxRepeat - 1) bs
    simp only [pbRunLength, List.length_cons]
    omega

theorem pbLiteralLength_le (fuel : Nat) (l : List Byte) : pbLiteralLength fuel l ≤ l.length := by
  induction fuel generalizing l with
  | zero => simp [pbLiteralLength]
  | succ n ih =>
    cases l with
    | nil => simp [pbLiteralLength]
    | cons b bs =>
      have := ih bs
      simp only [pbLiteralLength, List.length_cons]
      split <;> omega

theorem pbEncTurn_all {p : Params} {c : ByteCoder} (hc : c.wf p = true) : (pbEncTurn p c).All (·.wf p = true) := by
  have hi := (ByteCoder.wf_iff.1 hc).1
  unfold pbEncTurn
  split
  · exact hc
  · rename_i b bs hr
    have hlen : (b :: bs).length = c.input.length - c.i := by rw [← hr, ByteCoder.rest, List.length_drop]
    dsimp only
    split
    · have := pbRunLength_le (b :: bs)
      exact Progress.all_ofExcept fun c' h => ByteCoder.emitAt_wf hc (by omega) h
    · have := pbLiteralLength_le pbMaxLiteral (b :: bs)
      exact Progress.all_ofExcept fun c' h => ByteCoder.emitAt_wf hc (by omega) h

/-! ## The PackBits decoder -/

theorem PbDec.wf_iff {p : Params} {c : PbDec} :
    c.wf p = true ↔
      c.i ≤ c.input.length ∧ c.produced = c.out.length ∧ c.produced ≤ c.total ∧ c.out.length ≤ p.outCapacity := by
  simp [PbDec.wf, and_assoc]

theorem PbDec.chunk_all {p : Params} {c : PbDec} {bytes : List Byte} {i : Nat} (hc : c.wf p = true)
    (hi : i ≤ c.input.length) : (c.chunk p bytes i).All (·.wf p = true) := by
  obtain ⟨-, hprod, -, hcap⟩ := PbDec.wf_iff.1 hc
  unfold PbDec.chunk
  split
  · trivial
  · refine Progress.all_ofExcept fun out hout => PbDec.wf_iff.2 ?_
    obtain ⟨rfl, hle⟩ := emitAll_ok hout
    exact ⟨hi, by simp [hprod], by simp only; omega, hle hcap⟩

theorem PbDec.accept_all {p : Params} {c : PbDec} {t : PbTok} (hc : c.wf p = true) :
    (c.accept p t).All (·.wf p = true) := by
  cases t with
  | literal n =>
    simp only [PbDec.accept, PbDec.literal]
    split
    · trivial
    · exact PbDec.chunk_all hc (by omega)
  | illegal80 => trivial
  | rep h =>
    simp only [PbDec.accept, PbDec.rep]
    split
    · rename_i b hb
      exact PbDec.chunk_all hc (List.getElem?_eq_some_iff.1 hb).1
    · trivial

theorem PbDec.advance_all {p : Params} {c : PbDec} (hc : c.wf p = true) : (c.advance p).All (·.wf p = true) := by
  unfold PbDec.advance PbDec.turn
  split
  · split
    · rename_i b hb
      have hlt : c.i < c.input.length := (List.getElem?_eq_some_iff.1 hb).1
      exact PbDec.accept_all (PbDec.wf_iff.2 ⟨hlt, (PbDec.wf_iff.1 hc).2⟩)
    · trivial
  · exact hc

/-! ## The count/value coder -/

theorem CvRun.ok_iff {p : Params} {r : CvRun} :
    r.ok p = true ↔ r.sample.length = p.sampleBytes ∧ 1 ≤ r.count ∧ r.count ≤ runCountMax := by
  simp [CvRun.ok, countOk]

theorem CvEnc.wf_iff {p : Params} {c : CvEnc} :
    c.wf p = true ↔ c.i ≤ c.runs.length ∧ (∀ r ∈ c.runs, r.ok p = true) ∧ (∀ r, c.split = some r → r.ok p = true) ∧
      c.out.length ≤ p.outCapacity := by
  cases hs : c.split <;> simp [CvEnc.wf, hs, and_assoc]

theorem CvEnc.advance_all {p : Params} {c : CvEnc} (hc : c.wf p = true) : (c.advance p).All (·.wf p = true) := by
  obtain ⟨hi, hruns, hsplit, hcap⟩ := CvEnc.wf_iff.1 hc
  unfold CvEnc.advance
  split
  · rename_i r hr
    obtain ⟨hlen, -, hmax⟩ := CvRun.ok_iff.1 (hsplit r hr)
    refine Progress.all_ofExcept fun out hout => CvEnc.wf_iff.2 ⟨hi, hruns, fun r' hr' => ?_, (emitAll_ok hout).2 hcap⟩
    dsimp only at hr'
    split at hr'
    · cases hr'
    · cases hr'
      exact CvRun.ok_iff.2 ⟨hlen, by dsimp only; omega, by dsimp only; omega⟩
  · split
    · rename_i r hr
      obtain ⟨hlt, rfl⟩ := List.getElem?_eq_some_iff.1 hr
      refine CvEnc.wf_iff.2 ⟨hlt, hruns, fun r' hr' => ?_, hcap⟩
      cases hr'
      exact hruns _ (List.getElem_mem hlt)
    · exact hc

theorem CvDec.wf_iff {p : Params} {c : CvDec} :
    c.wf p = true ↔
      c.i ≤ c.input.length ∧ c.produced = runTotal c.runs ∧ c.produced ≤ c.total ∧ ∀ r ∈ c.runs, r.ok p = true := by
  simp [CvDec.wf, and_assoc]

theorem CvDec.packet_all {p : Params} {c : CvDec} {value : List Byte} {k : Byte} (hc : c.wf p = true)
    (hv : value.length = p.sampleBytes) : (c.packet value k).All (·.wf p = true) := by
  obtain ⟨hi, hprod, -, hruns⟩ := CvDec.wf_iff.1 hc
  unfold CvDec.packet
  split
  · trivial
  · refine CvDec.wf_iff.2 ⟨hi, by simp [hprod, runTotal], by simp only; omega, fun r hr => ?_⟩
    obtain hr | hr := List.mem_append.1 hr
    · exact hruns r hr
    · obtain rfl := List.mem_singleton.1 hr
      have := k.isLt
      exact CvRun.ok_iff.2 ⟨hv, by simp, by simp only [runCountMax]; omega⟩

theorem CvDec.advance_all {p : Params} {c : CvDec} (hc : c.wf p = true) : (c.advance p).All (·.wf p = true) := by
  obtain ⟨hi, hrest⟩ := CvDec.wf_iff.1 hc
  unfold CvDec.advance CvDec.turn
  split
  · split
    · rename_i t ht
      obtain ⟨hlt, -, hv⟩ := decodeCv_some (v := t.1) (k := t.2) ht
      rw [List.length_drop] at hlt
      exact CvDec.packet_all (CvDec.wf_iff.2 ⟨by simp only; omega, hrest⟩) hv
    · trivial
  · exact hc

/-! ## The Ascii85 coder -/

theorem A85Dec.wf_iff {p : Params} {c : A85Dec} :
    c.wf p = true ↔
      c.i ≤ c.input.length ∧ c.group.length < 5 ∧ (∀ d ∈ c.group, d ≤ 84) ∧ c.out.length ≤ p.outCapacity := by
  simp [A85Dec.wf, and_assoc]

theorem A85Dec.emitBytes_all {p : Params} {c : A85Dec} {bytes : List Byte} (hc : c.wf p = true) :
    (c.emitBytes p bytes).All (·.wf p = true) := by
  obtain ⟨hi, hlen, hdig, hcap⟩ := A85Dec.wf_iff.1 hc
  exact Progress.all_ofExcept fun out hout => A85Dec.wf_iff.2 ⟨hi, hlen, hdig, (emitAll_ok hout).2 hcap⟩

theorem A85Dec.digit_all {p : Params} {c : A85Dec} {d : Nat} (hc : c.wf p = true) (hd : d ≤ 84) :
    (c.digit p d).All (·.wf p = true) := by
  obtain ⟨hi, hlen, hdig, hcap⟩ := A85Dec.wf_iff.1 hc
  unfold A85Dec.digit
  dsimp only
  split
  · split
    · trivial
    · exact A85Dec.emitBytes_all (A85Dec.wf_iff.2 ⟨hi, by simp, by simp, hcap⟩)
  · rename_i h5
    rw [List.length_append, List.length_singleton] at h5
    refine A85Dec.wf_iff.2 ⟨hi, by simp; omega, fun x hx => ?_, hcap⟩
    obtain hx | hx := List.mem_append.1 hx
    · exact hdig x hx
    · obtain rfl := List.mem_singleton.1 hx
      exact hd

/-- R258: a digit that is read is 0 to 84. -/
theorem decodeA85_digit_le {ch : Byte} {follow : Option Byte} {d : Nat} (h : decodeA85 ch follow = .digit d) : d ≤ 84 := by
  unfold decodeA85 at h
  split at h
  · cases h
  split at h
  · cases h
  split at h
  · split at h <;> cases h
  split at h
  · cases h
  split at h
  · cases h
  · cases h; omega

theorem A85Dec.accept_all {p : Params} {c : A85Dec} {t : A85Tok} (hc : c.wf p = true) (ht : ∀ d, t = .digit d → d ≤ 84) :
    (c.accept p t).All (·.wf p = true) := by
  cases t with
  | digit d => exact A85Dec.digit_all hc (ht d rfl)
  | zero =>
    simp only [A85Dec.accept, A85Dec.zero]
    split
    · trivial
    · exact A85Dec.emitBytes_all hc
  | stop => exact Progress.all_ofExcept fun _ _ => hc
  | linebreak => exact hc
  | whitespace b => exact hc
  | illegal b => trivial

theorem A85Dec.advance_all {p : Params} {c : A85Dec} (hc : c.wf p = true) : (c.advance p).All (·.wf p = true) := by
  unfold A85Dec.advance A85Dec.turn
  split
  · rename_i ch hch
    have hlt : c.i < c.input.length := (List.getElem?_eq_some_iff.1 hch).1
    exact A85Dec.accept_all (A85Dec.wf_iff.2 ⟨hlt, (A85Dec.wf_iff.1 hc).2⟩) fun d => decodeA85_digit_le
  · trivial

theorem A85Enc.wf_iff {p : Params} {c : A85Enc} :
    c.wf p = true ↔ c.pendingCount < 4 ∧ c.lineCol ≤ a85LineWidth ∧ c.out.length ≤ p.outCapacity ∧
      ∀ k : Fin 4, k.val < c.pendingCount ∨ c.pending[k] = 0 := by
  simp [A85Enc.wf, and_assoc]

/-- R255: a data character, and the line break before the 73rd of a line, keep the column and the output in range. -/
theorem A85Enc.putChar_ok {cap : Nat} {c c' : A85Enc} {x : Byte} (hcol : c.lineCol ≤ a85LineWidth) (h : c.putChar cap x = .ok c') :
    c'.lineCol ≤ a85LineWidth ∧ c'.out.length ≤ cap := by
  have hput : ∀ d : A85Enc, d.lineCol < a85LineWidth →
      (do let out ← emit cap d.out x; pure { d with out := out, lineCol := d.lineCol + 1 } : Except ErrorKind A85Enc) = .ok c' →
      c'.lineCol ≤ a85LineWidth ∧ c'.out.length ≤ cap := by
    intro d hd hok
    obtain ⟨out, he, hpure⟩ := bind_ok hok
    cases hpure
    obtain ⟨hlt, rfl⟩ := emit_ok_iff.1 he
    exact ⟨hd, by simpa using hlt⟩
  unfold A85Enc.putChar at h
  split at h
  · obtain ⟨out, -, h⟩ := bind_ok h
    exact hput { c with out := out, lineCol := 0 } (Nat.zero_lt_succ _) h
  · rename_i hne
    exact hput c (by omega) h

/-- R37, R255: characters keep the column and the output in range. -/
theorem A85Enc.putChars_ok {cap : Nat} {c c' : A85Enc} {xs : List Byte} (h : c.putChars cap xs = .ok c')
    (hcol : c.lineCol ≤ a85LineWidth) (hcap : c.out.length ≤ cap) : c'.lineCol ≤ a85LineWidth ∧ c'.out.length ≤ cap := by
  induction xs generalizing c with
  | nil => cases h; exact ⟨hcol, hcap⟩
  | cons x xs ih =>
    simp only [A85Enc.putChars] at h
    split at h
    · rename_i c₁ h₁
      obtain ⟨h₂, h₃⟩ := A85Enc.putChar_ok hcol h₁
      exact ih h h₂ h₃
    · cases h

theorem zero_pending : ∀ k : Fin 4, (#v[0, 0, 0, 0] : Vector Byte 4)[k] = 0 := by decide

theorem A85Enc.byte_wf {p : Params} {c c' : A85Enc} {b : Byte} (hc : c.wf p = true) (h : c.byte p.outCapacity b = .ok c') :
    c'.wf p = true := by
  obtain ⟨hn, hcol, hcap, hzero⟩ := A85Enc.wf_iff.1 hc
  unfold A85Enc.byte at h
  dsimp only at h
  split at h
  · split at h
    · rename_i c₁ h₁
      cases h
      obtain ⟨hcol', hcap'⟩ := A85Enc.putChars_ok h₁ hcol hcap
      exact A85Enc.wf_iff.2 ⟨Nat.zero_lt_succ 3, hcol', hcap', fun k => .inr (zero_pending k)⟩
    · cases h
  · cases h
    refine A85Enc.wf_iff.2 ⟨by simp only; omega, hcol, hcap, fun k => ?_⟩
    by_cases hk : k.val < c.pendingCount + 1
    · exact .inl hk
    · refine .inr ?_
      have := (hzero k).resolve_left (by omega)
      simpa [Vector.getElem_setIfInBounds, show ¬ c.pendingCount = k.val by omega] using this

end Sys2Proof.Machine
end

section
/-! The ranges of the Huffman and LZW contexts, and O26. -/

namespace Sys2Proof.Machine

/-! ## The Huffman encoder -/

theorem HufEnc.wf_iff {p : Params} {h : HufEnc} :
    h.wf p = true ↔
      columnsOk h.columns = true ∧ h.bw.order = .msb ∧ h.bw.wf p = true ∧ h.trailingEols ≤ hufRtcEols := by
  simp [HufEnc.wf, and_assoc]

theorem HufEnc.put_wf {p : Params} {h h' : HufEnc} {e : Entry} (hh : h.wf p = true) (hp : h.put p.outCapacity e = .ok h') :
    h'.wf p = true := by
  obtain ⟨hcol, hord, hbw, heol⟩ := HufEnc.wf_iff.1 hh
  unfold HufEnc.put at hp
  split at hp
  · rename_i bw hw
    cases hp
    obtain ⟨hbw', hord'⟩ := BitWriter.writeBits_wf hbw hw
    exact HufEnc.wf_iff.2 ⟨hcol, hord'.trans hord, hbw', heol⟩
  · cases hp

theorem HufEnc.putAll_wf {p : Params} {h h' : HufEnc} {es : List Entry} (hh : h.wf p = true)
    (hp : h.putAll p.outCapacity es = .ok h') : h'.wf p = true := by
  induction es generalizing h with
  | nil => cases hp; exact hh
  | cons e es ih =>
    simp only [HufEnc.putAll] at hp
    split at hp
    · rename_i h₁ hp₁
      exact ih (HufEnc.put_wf hh hp₁) hp
    · cases hp

theorem HufEnc.encodeRun_wf {p : Params} {h h' : HufEnc} {r : Polarity × Nat} (hh : h.wf p = true)
    (hp : h.encodeRun p.outCapacity r = .ok h') : h'.wf p = true := by
  unfold HufEnc.encodeRun at hp
  split at hp
  · rename_i h₁ hp₁
    cases hp
    have h₁wf := HufEnc.putAll_wf hh hp₁
    exact h₁wf
  · cases hp

theorem HufEnc.encodeRuns_wf {p : Params} {h h' : HufEnc} {rs : List (Polarity × Nat)} (hh : h.wf p = true)
    (hp : h.encodeRuns p.outCapacity rs = .ok h') : h'.wf p = true := by
  induction rs generalizing h with
  | nil => cases hp; exact hh
  | cons r rs ih =>
    simp only [HufEnc.encodeRuns] at hp
    split at hp
    · rename_i h₁ hp₁
      exact ih (HufEnc.encodeRun_wf hh hp₁) hp
    · cases hp

/-- R28, R131: a scanline keeps the encoder in range. -/
theorem HufEnc.encodeLine_wf {p : Params} {h h' : HufEnc} {px : List Polarity} (hh : h.wf p = true)
    (hp : h.encodeLine p.outCapacity px = .ok h') : h'.wf p = true := by
  unfold HufEnc.encodeLine at hp
  obtain ⟨hr, h₁, hp⟩ := bind_ok hp
  obtain ⟨he, h₂, hp⟩ := bind_ok hp
  cases hp
  obtain ⟨hcol, hord, hbw, -⟩ := HufEnc.wf_iff.1 (HufEnc.put_wf (HufEnc.encodeRuns_wf hh h₁) h₂)
  exact HufEnc.wf_iff.2 ⟨hcol, hord, hbw, by simp [hufRtcEols]⟩

/-! ## LZW -/

theorem lzwIsString_iff {next k : Nat} : lzwIsString next k = true ↔ k < next ∧ (k < 256 ∨ firstFree ≤ k) := by
  simp [lzwIsString]

/-- Strings stay strings while `next` grows. -/
theorem lzwIsString_mono {next next' k : Nat} (hle : next ≤ next') (h : lzwIsString next k = true) :
    lzwIsString next' k = true := by
  rw [lzwIsString_iff] at h ⊢
  exact ⟨h.1.trans_le hle, h.2⟩

/-- A byte is the code of a string from the start on. -/
theorem lzwIsString_byte {next : Nat} (hle : firstFree ≤ next) (b : Byte) : lzwIsString next b.toNat = true := by
  have := b.isLt
  simp only [firstFree] at hle
  exact lzwIsString_iff.2 ⟨by omega, .inl (by omega)⟩

theorem widen_le {next width : Nat} (h : width ≤ lzwMaxBits) : widen next width ≤ lzwMaxBits := by
  unfold widen
  split <;> omega

/-! ### The encoder -/

/-- R31: what `LzwEnc.wf` says, clause by clause. -/
structure LzwEnc.InRange (p : Params) (c : LzwEnc) : Prop where
  order : c.bw.order = .lsb
  writer : c.bw.wf p = true
  next : c.next = firstFree + c.dict.length
  nextLe : c.next ≤ lzwDictCap
  widthGe : lzwInitialBits ≤ c.width
  widthLe : c.width ≤ lzwMaxBits
  cursor : c.i ≤ c.input.length
  dict : ∀ r ∈ c.dict, lzwIsString c.next r.2 = true ∧ lzwIsString c.next r.1.1 = true
  pre : ∀ k, c.pre = some k → lzwIsString c.next k = true

theorem LzwEnc.wf_iff {p : Params} {c : LzwEnc} : c.wf p = true ↔ c.InRange p := by
  unfold LzwEnc.wf
  simp only [Bool.and_eq_true, decide_eq_true_eq, List.all_eq_true, Option.all_eq_true]
  constructor
  · rintro ⟨⟨⟨⟨⟨⟨⟨⟨h₁, h₂⟩, h₃⟩, h₄⟩, h₅⟩, h₆⟩, h₇⟩, h₈⟩, h₉⟩
    exact ⟨h₁, h₂, h₃, h₄, h₅, h₆, h₇, h₈, h₉⟩
  · rintro ⟨h₁, h₂, h₃, h₄, h₅, h₆, h₇, h₈, h₉⟩
    exact ⟨⟨⟨⟨⟨⟨⟨⟨h₁, h₂⟩, h₃⟩, h₄⟩, h₅⟩, h₆⟩, h₇⟩, h₈⟩, h₉⟩

namespace LzwEnc.InRange

variable {p : Params} {c c' : LzwEnc}

theorem firstFree_le (h : c.InRange p) : firstFree ≤ c.next := h.next ▸ Nat.le_add_right _ _

theorem set_pre (h : c.InRange p) {k : Nat} (hk : lzwIsString c.next k = true) : InRange p { c with pre := some k } where
  __ := h
  pre k' hk' := by cases hk'; exact hk

theorem emitCode (h : c.InRange p) {k : Nat} (he : c.emitCode p k = .ok c') : c'.InRange p := by
  obtain ⟨bw, hw, rfl⟩ := LzwEnc.emitCode_ok he
  obtain ⟨hbw, hord⟩ := BitWriter.writeBits_wf h.writer hw
  exact { h with order := hord.trans h.order, writer := hbw }

theorem widened (h : c.InRange p) : c.widened.InRange p where
  __ := h
  widthGe := h.widthGe.trans (le_widen _ _)
  widthLe := widen_le h.widthLe

/-- R183: the new entry's key begins with a string. -/
theorem insert (h : c.InRange p) {k : Nat} {b : Byte} (hlt : c.next < lzwDictCap) (hk : lzwIsString c.next k = true) :
    (c.insert (k, b)).InRange p where
  __ := h
  next := by simp only [LzwEnc.insert, List.length_append, List.length_singleton, h.next]; omega
  nextLe := hlt
  dict r hr := by
    have hmono {j : Nat} : lzwIsString c.next j = true → lzwIsString (c.insert (k, b)).next j = true :=
      lzwIsString_mono (Nat.le_succ _)
    obtain hr | hr := List.mem_append.1 hr
    · obtain ⟨h₁, h₂⟩ := h.dict r hr
      exact ⟨hmono h₁, hmono h₂⟩
    · obtain rfl := List.mem_singleton.1 hr
      exact ⟨lzwIsString_iff.2 ⟨Nat.lt_succ_self _, .inr h.firstFree_le⟩, hmono hk⟩
  pre k' hk' := lzwIsString_mono (Nat.le_succ _) (h.pre k' hk')

/-- R180: `Reset()`; the match under way is the byte that follows. -/
theorem resetDict (h : c.InRange p) (b : Byte) : InRange p { c.resetDict with pre := some b.toNat } where
  __ := h
  next := rfl
  nextLe := (by decide : firstFree ≤ lzwDictCap)
  widthGe := Nat.le_refl _
  widthLe := (by decide : lzwInitialBits ≤ lzwMaxBits)
  dict r hr := by cases hr
  pre k hk := by cases hk; exact lzwIsString_byte (Nat.le_refl _) b

/-- R183, R185: after a mismatch, with the byte that begins the next match. -/
theorem grow (h : c.InRange p) {k : Nat} {b : Byte} (hk : lzwIsString c.next k = true) (hg : c.grow p (k, b) = .ok c') :
    InRange p { c' with pre := some b.toNat } := by
  unfold LzwEnc.grow at hg
  split at hg
  · rename_i hlt
    cases hg
    have hi := h.insert (b := b) hlt hk
    exact hi.set_pre (lzwIsString_byte hi.firstFree_le b)
  · split at hg
    · rename_i c₁ he
      cases hg
      exact (h.emitCode he).resetDict b
    · cases hg

/-- R43: a code found in the dictionary is a string. -/
theorem lookup (h : c.InRange p) {key : Nat × Byte} {j : Nat} (hl : c.lookup key = some j) :
    lzwIsString c.next j = true := by
  obtain ⟨r, hr, rfl⟩ := Option.map_eq_some_iff.1 hl
  exact (h.dict r (List.mem_of_find?_eq_some hr)).1

theorem byte (h : c.InRange p) {b : Byte} (hb : c.byte p b = .ok c') : c'.InRange p := by
  unfold LzwEnc.byte at hb
  split at hb
  · cases hb
    exact h.set_pre (lzwIsString_byte h.firstFree_le b)
  · rename_i k hk
    split at hb
    · rename_i j hj
      cases hb
      exact h.set_pre (h.lookup hj)
    · obtain ⟨c₁, he, hb⟩ := bind_ok hb
      obtain ⟨c₂, hg, hb⟩ := bind_ok hb
      cases hb
      have hnext : c₁.widened.next = c.next := by
        obtain ⟨bw, -, rfl⟩ := LzwEnc.emitCode_ok he
        rfl
      exact (h.emitCode he).widened.grow (hnext ▸ h.pre k hk) hg

end LzwEnc.InRange

theorem LzwEnc.byte_input {p : Params} {c c' : LzwEnc} {b : Byte} (hb : c.input[c.i]? = some b) (h : c.byte p b = .ok c') :
    c'.input = c.input := by
  refine (LzwEnc.advance_more (p := p) (c := c) (c' := { c' with i := c.i + 1 }) ?_).2.2
  simp [LzwEnc.advance, hb, h]

theorem LzwEnc.advance_all {p : Params} {c : LzwEnc} (hc : c.wf p = true) : (c.advance p).All (·.wf p = true) := by
  unfold LzwEnc.advance
  split
  · rename_i b hb
    refine Progress.all_ofExcept fun c' hc' => LzwEnc.wf_iff.2 ?_
    have hlt : c.i < c.input.length := (List.getElem?_eq_some_iff.1 hb).1
    exact { (LzwEnc.wf_iff.1 hc).byte hc' with cursor := by rw [LzwEnc.byte_input hb hc']; exact hlt }
  · exact Progress.all_ofExcept fun _ _ => hc

/-! ### The decoder -/

/-- R32, R33: what `LzwDec.wf` says, clause by clause. -/
structure LzwDec.InRange (p : Params) (c : LzwDec) : Prop where
  order : c.br.order = .lsb
  reader : c.br.wf = true
  next : c.next = firstFree + c.entries.length
  nextLe : c.next ≤ lzwDictCap
  widthGe : lzwInitialBits ≤ c.width
  widthLe : c.width ≤ lzwMaxBits
  entries : ∀ j pre suf, c.entries[j]? = some (pre, suf) → lzwIsString (firstFree + j) pre = true
  prevNone : c.prev = none → c.entries = []
  prevSome : ∀ k, c.prev = some k → lzwIsString c.next k = true
  produced : c.produced = c.out.length
  total : c.produced ≤ c.expected
  capacity : c.out.length ≤ p.outCapacity

theorem LzwDec.wf_iff {p : Params} {c : LzwDec} : c.wf p = true ↔ c.InRange p := by
  have hentries : (c.entries.zipIdx.all fun e => lzwIsString (firstFree + e.2) e.1.1) = true ↔
      ∀ j pre suf, c.entries[j]? = some (pre, suf) → lzwIsString (firstFree + j) pre = true := by
    rw [List.all_eq_true]
    constructor
    · exact fun h j pre suf hj => h ((pre, suf), j) (List.mem_zipIdx_iff_getElem?.2 hj)
    · exact fun h e he => h e.2 e.1.1 e.1.2 (List.mem_zipIdx_iff_getElem?.1 he)
  unfold LzwDec.wf
  simp only [Bool.and_eq_true, decide_eq_true_eq, hentries]
  constructor
  · rintro ⟨⟨⟨⟨⟨⟨⟨⟨⟨⟨h₁, h₂⟩, h₃⟩, h₄⟩, h₅⟩, h₆⟩, h₇⟩, h₈⟩, h₉⟩, h₁₀⟩, h₁₁⟩
    exact ⟨h₁, h₂, h₃, h₄, h₅, h₆, h₇, fun hp => by simpa [hp] using h₈, fun k hp => by simpa [hp] using h₈, h₉, h₁₀, h₁₁⟩
  · rintro ⟨h₁, h₂, h₃, h₄, h₅, h₆, h₇, h₈, h₈', h₉, h₁₀, h₁₁⟩
    refine ⟨⟨⟨⟨⟨⟨⟨⟨⟨⟨h₁, h₂⟩, h₃⟩, h₄⟩, h₅⟩, h₆⟩, h₇⟩, ?_⟩, h₉⟩, h₁₀⟩, h₁₁⟩
    cases hp : c.prev with
    | none => exact decide_eq_true (h₈ hp)
    | some k => exact h₈' k hp

namespace LzwDec.InRange

variable {p : Params} {c c' : LzwDec}

theorem firstFree_le (h : c.InRange p) : firstFree ≤ c.next := h.next ▸ Nat.le_add_right _ _

theorem set_br (h : c.InRange p) {br : BitReader} {k : Nat} (hr : c.br.readBits c.width = some (k, br)) :
    InRange p { c with br := br } where
  __ := h
  order := by obtain ⟨-, -, rfl⟩ := BitReader.readBits_some hr; exact h.order
  reader := BitReader.readBits_wf h.reader hr

theorem set_prev (h : c.InRange p) {k : Nat} (hk : lzwIsString c.next k = true) : InRange p { c with prev := some k } where
  __ := h
  prevNone h' := by cases h'
  prevSome k' hk' := by cases hk'; exact hk

theorem emitted (h : c.InRange p) {s : List Byte} (hle : c.produced + s.length ≤ c.expected)
    (hcap : (c.out ++ s).length ≤ p.outCapacity) :
    InRange p { c with out := c.out ++ s, produced := c.produced + s.length } where
  __ := h
  produced := by simp [h.produced]
  total := hle
  capacity := hcap

theorem widened (h : c.InRange p) : InRange p { c with width := widen c.next c.width } where
  __ := h
  widthGe := h.widthGe.trans (le_widen _ _)
  widthLe := widen_le h.widthLe

/-- R194: the new entry continues the previous code, a string of a smaller code. -/
theorem entered (h : c.InRange p) {k : Nat} (hk : c.prev = some k) (hlt : c.next < lzwDictCap) (b : Byte) :
    InRange p { c with entries := c.entries ++ [(k, b)], next := c.next + 1 } where
  __ := h
  next := by simp only [List.length_append, List.length_singleton, h.next]; omega
  nextLe := hlt
  entries j pre suf hj := by
    rw [List.getElem?_append] at hj
    split at hj
    · exact h.entries j pre suf hj
    · obtain ⟨hj₀, he⟩ := List.getElem?_eq_some_iff.1 hj
      rw [List.length_singleton] at hj₀
      obtain rfl : j = c.entries.length := by omega
      simp only [Nat.sub_self, List.getElem_cons_zero, Prod.mk.injEq] at he
      rw [← he.1, ← h.next]
      exact h.prevSome k hk
  prevNone h' := by rw [hk] at h'; cases h'
  prevSome k' hk' := lzwIsString_mono (Nat.le_succ _) (h.prevSome k' hk')

theorem grow (h : c.InRange p) (b : Byte) : (c.grow b).InRange p := by
  unfold LzwDec.grow
  split
  · exact h
  · rename_i k hk
    dsimp only
    split
    · rename_i hlt
      exact (h.entered hk hlt b).widened
    · exact h.widened

end LzwDec.InRange

/-- R194: `next` after a code is the register it was, or one more where a previous code exists and the table has room. -/
theorem LzwDec.grow_next (c : LzwDec) (b : Byte) :
    c.next ≤ (c.grow b).next ∧ (c.prev ≠ none → c.next < lzwDictCap → (c.grow b).next = c.next + 1) := by
  unfold LzwDec.grow
  split
  · rename_i h
    exact ⟨Nat.le_refl _, fun hne => absurd h hne⟩
  · dsimp only
    split
    · exact ⟨Nat.le_succ _, fun _ _ => rfl⟩
    · rename_i hge
      exact ⟨Nat.le_refl _, fun _ hlt => absurd hlt hge⟩

/-- R190: a code that is a string after it has been entered. -/
theorem LzwDec.emitString_all {p : Params} {c : LzwDec} {k : Nat} {s : List Byte} (hc : c.InRange p)
    (hk : ∀ b, lzwIsString (LzwDec.grow { c with out := c.out ++ s, produced := c.produced + s.length } b).next k = true) :
    (c.emitString p k s).All (·.wf p = true) := by
  refine Progress.all_ofExcept fun out hout => ?_
  obtain ⟨rfl, hcap⟩ := emitAll_ok hout
  dsimp only
  split
  · trivial
  · rename_i hle
    exact LzwDec.wf_iff.2 (((hc.emitted (by simpa using hle) (hcap hc.capacity)).grow _).set_prev (hk _))

/-- R193, R194: the codes that a turn enters: one that is a string already, or the code `next` where it is entered now. -/
theorem LzwDec.emitString_string_all {p : Params} {c : LzwDec} {k : Nat} {s : List Byte} (hc : c.InRange p)
    (hk : lzwIsString c.next k = true) : (c.emitString p k s).All (·.wf p = true) :=
  LzwDec.emitString_all hc fun b => lzwIsString_mono (LzwDec.grow_next _ b).1 hk

theorem LzwDec.emitString_next_all {p : Params} {c : LzwDec} {s : List Byte} (hc : c.InRange p) (hprev : c.prev ≠ none)
    (hlt : c.next < lzwDictCap) : (c.emitString p c.next s).All (·.wf p = true) := by
  refine LzwDec.emitString_all hc fun b => ?_
  have hnext := (LzwDec.grow_next { c with out := c.out ++ s, produced := c.produced + s.length } b).2 hprev hlt
  exact lzwIsString_iff.2 ⟨by rw [hnext]; exact Nat.lt_succ_self _, .inr hc.firstFree_le⟩

/-- R52: bits read make a value within their count. -/
theorem lsbValue_lt (bits : List Bool) : lsbValue bits < 2 ^ bits.length := by
  induction bits with
  | nil => simp [lsbValue]
  | cons b bs ih =>
    have : b.toNat ≤ 1 := Bool.toNat_le b
    have hc : lsbValue (b :: bs) = b.toNat + 2 * lsbValue bs := rfl
    rw [hc, List.length_cons, Nat.pow_succ]
    omega

theorem BitReader.readBits_lt {r r' : BitReader} {width v : Nat} (ho : r.order = .lsb)
    (h : r.readBits width = some (v, r')) : v < 2 ^ width := by
  obtain ⟨hle, rfl, -⟩ := BitReader.readBits_some h
  have := lsbValue_lt (r.peek width)
  rw [BitReader.peek_length, Nat.min_eq_left hle] at this
  rwa [ho]

/-- R87: what the token read from a code value says of the value. -/
theorem decodeLzw_cases (known : Bool) (next k : Nat) :
    decodeLzw known next k = .clear ∨ decodeLzw known next k = .stop ∨
    (∃ b : Byte, decodeLzw known next k = .literal b) ∨
    (decodeLzw known next k = .string k ∧ 258 ≤ k ∧ k < next) ∨
    (decodeLzw known next k = .next ∧ known = true ∧ k = next) ∨
    decodeLzw known next k = .illegal k := by
  unfold decodeLzw clearCode endCode
  split
  · exact .inl rfl
  split
  · exact .inr (.inl rfl)
  split
  · exact .inr (.inr (.inl ⟨_, rfl⟩))
  split
  · simp
  split
  · exact .inr (.inr (.inr (.inl ⟨rfl, by omega, ‹_›⟩)))
  split
  · rename_i hknown _ heq
    exact .inr (.inr (.inr (.inr (.inl ⟨rfl, by simpa using hknown, heq⟩))))
  · simp

/-- R87, R190: a token that the decoder reads keeps its context in range. -/
theorem LzwDec.accept_all {p : Params} {c : LzwDec} {k : Nat} (hc : c.InRange p) (hk : k < 2 ^ c.width) :
    (c.accept p (decodeLzw c.prev.isSome c.next k)).All (·.wf p = true) := by
  obtain h | h | ⟨b, h⟩ | ⟨h, hge, hlt⟩ | ⟨h, hknown, rfl⟩ | h := decodeLzw_cases c.prev.isSome c.next k <;> rw [h]
  · exact LzwDec.wf_iff.2 { hc with
      next := rfl, nextLe := (by decide : firstFree ≤ lzwDictCap)
      widthGe := Nat.le_refl _, widthLe := (by decide : lzwInitialBits ≤ lzwMaxBits)
      entries := by simp, prevNone := fun _ => rfl, prevSome := by simp }
  · simp only [LzwDec.accept, LzwDec.finish]
    split
    · trivial
    · exact LzwDec.wf_iff.2 hc
  · exact LzwDec.emitString_string_all hc (lzwIsString_byte hc.firstFree_le b)
  · simp only [LzwDec.accept, LzwDec.known]
    split
    · exact LzwDec.emitString_string_all hc (lzwIsString_iff.2 ⟨hlt, .inr hge⟩)
    · trivial
  · simp only [LzwDec.accept, LzwDec.special]
    split
    · have hcap : 2 ^ c.width ≤ lzwDictCap := Nat.pow_le_pow_right (by decide) hc.widthLe
      exact LzwDec.emitString_next_all hc (Option.isSome_iff_ne_none.1 hknown) (hk.trans_le hcap)
    · trivial
  · trivial

theorem LzwDec.advance_all {p : Params} {c : LzwDec} (hc : c.wf p = true) : (c.advance p).All (·.wf p = true) := by
  have hc := LzwDec.wf_iff.1 hc
  unfold LzwDec.advance LzwDec.turn
  split
  · rename_i k br hr
    exact LzwDec.accept_all (hc.set_br hr) (BitReader.readBits_lt hc.order hr)
  · trivial

/-! ### The strings of the codes -/

theorem lzwString_of_lt {entries : List (Nat × Byte)} {k : Nat} (hk : k < 256) (fuel : Nat) :
    lzwString entries fuel k = some [BitVec.ofNat 8 k] := by
  cases fuel <;> simp [lzwString, hk]

/-- R33: one step of the walk, at an assigned code. -/
theorem lzwString_entry {entries : List (Nat × Byte)} {j pre : Nat} {suf : Byte} (hj : entries[j]? = some (pre, suf))
    (fuel : Nat) :
    lzwString entries (fuel + 1) (firstFree + j) = (lzwString entries fuel pre).map fun s => s ++ [suf] := by
  simp [lzwString, firstFree, hj, show ¬ 258 + j < 256 by omega]

/-- R33: where each entry continues the string of a smaller code, the walk from a code below `258 + n` ends within `n` steps,
and more fuel changes nothing. -/
theorem lzwString_isSome {entries : List (Nat × Byte)}
    (hpre : ∀ j pre suf, entries[j]? = some (pre, suf) → lzwIsString (firstFree + j) pre = true) {n k : Nat}
    (hn : n ≤ entries.length) (hk : lzwIsString (firstFree + n) k = true) {fuel : Nat} (hf : n ≤ fuel) :
    ∃ q, lzwString entries n k = some q ∧ lzwString entries fuel k = some q := by
  induction n generalizing k fuel with
  | zero =>
    obtain ⟨hlt, h256⟩ := lzwIsString_iff.1 hk
    have h : k < 256 := by omega
    exact ⟨_, lzwString_of_lt h _, lzwString_of_lt h _⟩
  | succ n ih =>
    obtain ⟨hlt, h | h⟩ := lzwIsString_iff.1 hk
    · exact ⟨_, lzwString_of_lt h _, lzwString_of_lt h _⟩
    · obtain ⟨j, rfl⟩ := Nat.exists_eq_add_of_le h
      obtain ⟨f, rfl⟩ := Nat.exists_eq_add_of_le' (show 1 ≤ fuel by omega)
      have hj : entries[j]? = some (entries[j].1, entries[j].2) := List.getElem?_eq_getElem (by omega)
      have hpre' : lzwIsString (firstFree + n) entries[j].1 = true := lzwIsString_mono (by omega) (hpre _ _ _ hj)
      obtain ⟨q, h₁, h₂⟩ := ih (by omega) hpre' (fuel := f) (by omega)
      exact ⟨q ++ [entries[j].2], by rw [lzwString_entry hj, h₁]; rfl, by rw [lzwString_entry hj, h₂]; rfl⟩

/-- Settles O26: the walk from a code goes on from the code its entry continues with one step less of fuel, which is still
enough (`lzwString_isSome`). -/
theorem lzwStringsFollowThePrefixChain : Obligations.LzwStringsFollowThePrefixChain := by
  intro p c hc
  have hc := LzwDec.wf_iff.1 hc
  refine ⟨fun k hk => lzwString_of_lt hk _, fun k hge hlt => ?_⟩
  obtain ⟨j, rfl⟩ := Nat.exists_eq_add_of_le hge
  have hj : j < c.entries.length := by have := hc.next; simp only [firstFree] at this; omega
  obtain ⟨n, hn⟩ := Nat.exists_eq_add_of_le' (show 1 ≤ c.entries.length by omega)
  have hentry : c.entries[j]? = some (c.entries[j].1, c.entries[j].2) := List.getElem?_eq_getElem hj
  obtain ⟨q, h₁, h₂⟩ := lzwString_isSome hc.entries (n := n) (by omega)
    (lzwIsString_mono (by omega) (hc.entries _ _ _ hentry)) (fuel := c.entries.length) (by omega)
  refine ⟨c.entries[j].1, c.entries[j].2, q, ?_, h₂, ?_⟩
  · rw [Nat.add_sub_cancel_left]; exact hentry
  · have := lzwString_entry hentry n
    rw [h₁, ← hn] at this
    exact this

end Sys2Proof.Machine
end

section
/-! The Huffman decoder: every turn keeps its context in range and only reads on in its input. -/

namespace Sys2Proof.Machine

/-- R29: what `HufDec.wf` says, clause by clause. -/
structure HufDec.InRange (d : HufDec) : Prop where
  columns : columnsOk d.columns = true
  order : d.br.order = .msb
  reader : d.br.wf = true
  sbLen : d.sbLen ≤ hufMaxCodeLen
  fits : d.row.length + d.pending ≤ d.columns
  pending : d.pendingValid = true ∨ d.pending = 0
  held : d.held < hufBlankLinesEop
  rowsOut : ∀ r ∈ d.rowsOut, r.length = d.columns

theorem HufDec.wf_iff {d : HufDec} : d.wf = true ↔ d.InRange := by
  unfold HufDec.wf
  simp only [Bool.and_eq_true, Bool.or_eq_true, decide_eq_true_eq, List.all_eq_true]
  constructor
  · rintro ⟨⟨⟨⟨⟨⟨⟨h₁, h₂⟩, h₃⟩, h₄⟩, h₅⟩, h₆⟩, h₇⟩, h₈⟩
    exact ⟨h₁, h₂, h₃, h₄, h₅, h₆, h₇, h₈⟩
  · rintro ⟨h₁, h₂, h₃, h₄, h₅, h₆, h₇, h₈⟩
    exact ⟨⟨⟨⟨⟨⟨⟨h₁, h₂⟩, h₃⟩, h₄⟩, h₅⟩, h₆⟩, h₇⟩, h₈⟩

/-- R27, R61: a reader later in the same input. -/
structure BitReader.ReadsOn (r r' : BitReader) : Prop where
  input : r'.input = r.input
  order : r'.order = r.order
  bitpos : r.bitpos ≤ r'.bitpos

theorem BitReader.ReadsOn.refl (r : BitReader) : r.ReadsOn r := ⟨rfl, rfl, Nat.le_refl _⟩

theorem BitReader.ReadsOn.trans {r r' r'' : BitReader} (h : r.ReadsOn r') (k : r'.ReadsOn r'') : r.ReadsOn r'' :=
  ⟨k.input.trans h.input, k.order.trans h.order, h.bitpos.trans k.bitpos⟩

/-- R106: a read moves the position on. -/
theorem BitReader.readBits_readsOn {r r' : BitReader} {width v : Nat} (h : r.readBits width = some (v, r')) :
    r.ReadsOn r' := by
  obtain ⟨-, -, rfl⟩ := BitReader.readBits_some h
  exact ⟨rfl, rfl, Nat.le_add_right _ _⟩

/-- A context that the decoder can come to in the session: in range, of the same columns, later in the same input. -/
structure HufDec.Continues (d d' : HufDec) : Prop where
  inRange : d'.InRange
  columns : d'.columns = d.columns
  br : d.br.ReadsOn d'.br

namespace HufDec

variable {d d' d'' : HufDec}

theorem InRange.continues (h : d.InRange) : d.Continues d := ⟨h, rfl, .refl _⟩

theorem Continues.trans (h : d.Continues d') (k : d'.Continues d'') : d.Continues d'' :=
  ⟨k.inRange, k.columns.trans h.columns, h.br.trans k.br⟩

/-! ### The updates of a turn -/

theorem readCode_continues (h : d.InRange) {e : Entry} (hr : d.readCode = .ok (e, d')) : d.Continues d' := by
  obtain ⟨-, -, hle, hlen, rfl⟩ := HufDec.readCode_ok hr
  have hbr := BitReader.wf_iff.1 h.reader
  simp only [BitReader.remaining] at hle
  exact ⟨{ h with sbLen := hlen, reader := BitReader.wf_iff.2 (by dsimp only; omega) }, rfl, rfl, rfl, Nat.le_add_right _ _⟩

theorem closeRun_continues (h : d.InRange) {e : Entry} (hr : d.closeRun e = .ok d') : d.Continues d' := by
  unfold HufDec.closeRun at hr
  split at hr
  · cases hr
  · cases hr
    exact ⟨{ h with fits := by simp only [List.length_append, List.length_replicate]; omega, pending := .inr rfl },
      rfl, .refl _⟩

theorem addMakeup_continues (h : d.InRange) {e : Entry} (hr : d.addMakeup e = .ok d') : d.Continues d' := by
  unfold HufDec.addMakeup at hr
  split at hr
  · cases hr
  · cases hr
    exact ⟨{ h with fits := by dsimp only; omega, pending := .inl rfl }, rfl, .refl _⟩

theorem paddedRow_length (h : d.InRange) : d.paddedRow.length = d.columns := by
  have := h.fits
  simp only [paddedRow, List.length_append, List.length_replicate]
  omega

theorem length_of_mem_whiteRows {n : Nat} {r : List Polarity} (hr : r ∈ d.whiteRows n) : r.length = d.columns := by
  rw [List.eq_of_mem_replicate hr, List.length_replicate]

/-- Rows of `columns` pixels are delivered. -/
theorem InRange.deliver (h : d.InRange) {rows : List (List Polarity)} (hrows : ∀ r ∈ rows, r.length = d.columns) {n : Nat}
    (hn : n < hufBlankLinesEop) : d.Continues { d with rowsOut := d.rowsOut ++ rows, held := n } :=
  ⟨{ h with held := hn, rowsOut := fun r hr => (List.mem_append.1 hr).elim (h.rowsOut r) (hrows r) }, rfl, .refl _⟩

end HufDec

/-! ### The turn -/

namespace HufRun

variable {r : HufRun}

theorem endLine_all (h : r.dec.InRange) {line : LineEnd} (hline : ∀ px, line = .row px → px.length = r.dec.columns) :
    (r.endLine line).All fun r' => r.dec.Continues r'.dec := by
  unfold HufRun.endLine
  split
  · exact h.continues
  · exact h.continues
  · exact h.continues
  · trivial
  · split
    · exact h.continues
    · have := h.held
      exact ⟨{ h with held := by dsimp only; omega }, rfl, .refl _⟩
  · rename_i px _
    have hrows : ∀ row ∈ r.dec.whiteRows r.dec.held ++ [px], row.length = r.dec.columns := fun row hrow =>
      (List.mem_append.1 hrow).elim HufDec.length_of_mem_whiteRows fun hm => List.mem_singleton.1 hm ▸ hline px rfl
    rw [List.append_assoc]
    exact h.deliver hrows (by decide)

theorem accept_all (h : r.dec.InRange) (first : Bool) (e : Entry) :
    (r.accept first e).All fun r' => r.dec.Continues r'.dec := by
  have hrow {row : List Polarity} (hlen : row.length = r.dec.columns) :
      ∀ px, LineEnd.row row = .row px → px.length = r.dec.columns := by rintro px ⟨⟩; exact hlen
  unfold HufRun.accept
  split
  · rename_i hfull
    split
    · exact endLine_all h (hrow hfull)
    · trivial
  · split
    · split
      · trivial
      split
      · exact endLine_all h nofun
      · exact endLine_all h (hrow (HufDec.paddedRow_length h))
    · exact Progress.all_ofExcept fun d hd => HufDec.closeRun_continues h hd
    · exact Progress.all_ofExcept fun d hd => HufDec.closeRun_continues h hd
    · exact Progress.all_ofExcept fun d hd => HufDec.addMakeup_continues h hd
    · exact Progress.all_ofExcept fun d hd => HufDec.addMakeup_continues h hd
    · exact Progress.all_ofExcept fun d hd => HufDec.addMakeup_continues h hd

theorem beginLine_all (h : r.dec.InRange) : r.beginLine.All fun r' => r.dec.Continues r'.dec := by
  unfold HufRun.beginLine
  split
  · exact endLine_all h nofun
  · exact ⟨{ h with fits := Nat.zero_le _, pending := .inr rfl }, rfl, .refl _⟩

/-- R29, R27: one turn of the loop. -/
theorem advance_all (h : r.dec.InRange) : r.advance.All fun r' => r.dec.Continues r'.dec := by
  unfold HufRun.advance HufRun.turn
  split
  · split
    · exact beginLine_all h
    split
    · exact beginLine_all h
    · exact h.deliver (fun _ => HufDec.length_of_mem_whiteRows) h.held
  · split
    · rename_i hfull
      exact endLine_all h (by rintro px ⟨⟩; exact hfull.1)
    split
    · rename_i e d hd
      have hc := HufDec.readCode_continues h hd
      exact (accept_all (r := { r with dec := d }) hc.inRange _ e).imp fun _ hk => hc.trans hk
    · trivial

end HufRun

/-- R29, R27: a whole operation of the decoder. -/
theorem HufDec.run_all {d : HufDec} (h : d.InRange) (mode : HufMode) : (d.run mode).All fun r => d.Continues r.dec :=
  runLoop_all (I := fun r => d.Continues r.dec)
    (fun _ hc => (HufRun.advance_all hc.inRange).imp fun _ hk => hc.trans hk) _ _ h.continues

/-! ### Errors -/

/-- R150: the one error of the end of a scanline. -/
theorem HufRun.endLine_raised {r : HufRun} {line : LineEnd} {x : ErrorKind} (h : r.endLine line = .raised x) :
    x = .pixelCountMismatch := by
  unfold HufRun.endLine at h
  split at h
  · cases h
  · cases h
  · cases h
  · cases h; rfl
  · split at h <;> cases h
  · cases h

/-- R144, R147 to R150: no code word raises InvalidOperand. -/
theorem HufRun.accept_raised {r : HufRun} {first : Bool} {e : Entry} {x : ErrorKind} (h : r.accept first e = .raised x) :
    x ≠ .invalidOperand := by
  have hend {line : LineEnd} (hl : r.endLine line = .raised x) : x ≠ .invalidOperand := by
    rw [HufRun.endLine_raised hl]; decide
  have hcode {f : HufDec → HufRun} {y : Except ErrorKind HufDec} (hy : ∀ z, y = .error z → z = .corruptBitstream)
      (hx : Progress.ofExcept (fun d => .more (f d)) y = .raised x) : x ≠ .invalidOperand := by
    cases y with
    | ok d => cases hx
    | error z => cases hx; rw [hy _ rfl]; decide
  have hclose : ∀ z, r.dec.closeRun e = .error z → z = .corruptBitstream := by
    intro z hz; unfold HufDec.closeRun at hz; split at hz <;> cases hz; rfl
  have hmakeup : ∀ z, r.dec.addMakeup e = .error z → z = .corruptBitstream := by
    intro z hz; unfold HufDec.addMakeup at hz; split at hz <;> cases hz; rfl
  unfold HufRun.accept at h
  split at h
  · split at h
    · exact hend h
    · cases h; decide
  · split at h
    · split at h
      · cases h; decide
      split at h
      · exact hend h
      · exact hend h
    · exact hcode hclose h
    · exact hcode hclose h
    · exact hcode hmakeup h
    · exact hcode hmakeup h
    · exact hcode hmakeup h

end Sys2Proof.Machine
end

section
/-! A step inside an operation is one turn of its loop (R34): the token that is read is an instruction that the decoder in
progress takes, so that reading and executing it together are the turn. -/

namespace Sys2Proof.Machine

/-! ## The single-operation units -/

/-- A turn settles alike whatever the operation in progress was. -/
theorem settle_set_active {α : Type} (u : Session) (mk : α → Active) (s : State) (x : Option Active) (p : Progress α) :
    settle u mk { s with active := x } p = settle u mk s p := by
  cases p with
  | more c => rfl
  | done c st r => rfl
  | raised e => cases e <;> cases u <;> rfl
  | stuck f => rfl

theorem step_sbUnpack_turn {s : State} {c : ByteCoder} (ha : s.active = some (.sbUnpack c)) :
    step s = settle .sbUnpack .sbUnpack s (sbUnpackTurn s.params c) := by
  rw [step_sbUnpack ha, sbUnpackTurn]
  cases sbTurn c with
  | stop p => rfl
  | token t c =>
    have h := settle_set_active .sbUnpack .sbUnpack s (some (.sbUnpack c)) (sbAccept s.params c t)
    cases t <;> exact h

theorem step_pbDec_turn {s : State} {c : PbDec} (ha : s.active = some (.pbDec c)) :
    step s = settle .pbDec .pbDec s (c.advance s.params) := by
  rw [step_pbDec ha, PbDec.advance]
  cases c.turn with
  | stop p => rfl
  | token t c =>
    have h := settle_set_active .pbDec .pbDec s (some (.pbDec c)) (c.accept s.params t)
    cases t <;> exact h

theorem step_a85Dec_turn {s : State} {c : A85Dec} (ha : s.active = some (.a85Dec c)) :
    step s = settle .a85Dec .a85Dec s (c.advance s.params) := by
  rw [step_a85Dec ha, A85Dec.advance]
  cases c.turn with
  | stop p => rfl
  | token t c =>
    have h := settle_set_active .a85Dec .a85Dec s (some (.a85Dec c)) (c.accept s.params t)
    cases t <;> exact h

/-- R90: a packet that is read has `SAMPLE_BYTES` value bytes. -/
theorem CvDec.turn_token {p : Params} {c c' : CvDec} {t : List Byte × Byte} (h : c.turn p = .token t c') :
    t.1.length = p.sampleBytes := by
  unfold CvDec.turn at h
  split at h
  · split at h
    · rename_i t' ht
      cases h
      exact (decodeCv_some (v := t.1) (k := t.2) ht).2.2
    · cases h
  · cases h

theorem step_cvDec_turn {s : State} {c : CvDec} (ha : s.active = some (.cvDec c)) :
    step s = settle .cvDec .cvDec s (c.advance s.params) := by
  rw [step_cvDec ha, CvDec.advance]
  cases ht : c.turn s.params with
  | stop p => rfl
  | token t c' =>
    have hread : execCvPacket t.1 t.2 { s with active := some (.cvDec c') } =
        settle .cvDec .cvDec { s with active := some (.cvDec c') } (c'.packet t.1 t.2) := if_pos (CvDec.turn_token ht)
    exact hread.trans (settle_set_active _ _ s _ _)

/-- R87: a code value that fits the width is a token the decoder takes. -/
theorem exec_lzwTok {s : State} {c : LzwDec} {k : Nat} (ha : s.active = some (.lzwDec c)) (hk : k < 2 ^ c.width) :
    exec (decodeLzw c.prev.isSome c.next k).instr s =
      settle .lzwDec .lzwDec s (c.accept s.params (decodeLzw c.prev.isSome c.next k)) := by
  have hon {ok : LzwDec → Bool} (f : LzwDec → Progress LzwDec) (hok : ok c = true) :
      onLzwDec s ok f = settle .lzwDec .lzwDec s (f c) := by simp [onLzwDec, ha, hok]
  have hreads {t : LzwTok} (ht : decodeLzw c.prev.isSome c.next k = t) : c.reads k t = true := by
    simp [LzwDec.reads, hk, ht]
  obtain h | h | ⟨b, h⟩ | ⟨h, -, -⟩ | ⟨h, -, rfl⟩ | h := decodeLzw_cases c.prev.isSome c.next k <;>
    have hr := hreads h <;> rw [h]
  · exact hon _ rfl
  · exact hon _ rfl
  · exact hon (fun c => c.literal s.params b) rfl
  · exact hon (ok := fun c => c.reads k (.string k)) (fun c => c.known s.params k) hr
  · exact hon (ok := fun c => c.reads c.next .next) (fun c => c.special s.params) hr
  · exact hon (ok := fun c => c.reads k (.illegal k)) (fun _ => LzwDec.illegal) hr

theorem step_lzwDec_turn {s : State} {c : LzwDec} (ha : s.active = some (.lzwDec c)) (ho : c.br.order = .lsb) :
    step s = settle .lzwDec .lzwDec s (c.advance s.params) := by
  rw [step_lzwDec ha, LzwDec.advance, LzwDec.turn]
  cases hr : c.br.readBits c.width with
  | none => rfl
  | some x =>
    exact (exec_lzwTok (c := { c with br := x.2 }) rfl (BitReader.readBits_lt ho hr)).trans (settle_set_active _ _ s _ _)

/-! ## The Huffman decoder -/

/-- R30, R141: a code word of a colour's set is the instruction of its row, and of a class the set holds. -/
theorem codeEntry_instr : ∀ c, ∀ e ∈ codeSet c, codeEntry e.instr = some e := by
  intro c
  cases c <;> decide +kernel

theorem inSet_of_mem_codeSet : ∀ c, ∀ e ∈ codeSet c, e.cls.inSet c = true := by
  intro c
  cases c <;> decide +kernel

/-- A turn that raises no InvalidOperand settles alike whatever the context of the session was. -/
theorem settleHuf_set_hufDec (s : State) (d : HufDec) {p : Progress HufRun} (hp : ∀ x, p = .raised x → x ≠ .invalidOperand) :
    settleHuf { s with hufDec := some d } p = settleHuf s p := by
  cases p with
  | more r => rfl
  | done r st res => cases hm : r.mode <;> simp [settleHuf, hm, State.close]
  | raised x => simp [settleHuf, State.raise_of_ne _ _ _ (hp x rfl), State.close]
  | stuck f => rfl

/-- R143: a token is a code word read inside a scanline. -/
theorem HufRun.turn_token {r r' : HufRun} {e : Entry} (h : r.turn = .token e r') :
    ∃ first d, r.phase = .code first ∧ r.dec.readCode = .ok (e, d) ∧ r' = { r with dec := d } := by
  unfold HufRun.turn at h
  split at h
  · split at h
    · cases h
    · split at h <;> cases h
  · rename_i first hph
    split at h
    · cases h
    · split at h
      · rename_i e' d hd
        cases h
        exact ⟨first, d, hph, hd, rfl⟩
      · cases h

theorem step_hufDec_turn {s : State} {mode : HufMode} {phase : HufPhase} {d : HufDec}
    (ha : s.active = some (.hufDec mode phase)) (hd : s.hufDec = some d) :
    step s = settleHuf s (HufRun.advance ⟨d, mode, phase⟩) := by
  rw [step_hufDec ha hd, HufRun.advance]
  cases ht : HufRun.turn ⟨d, mode, phase⟩ with
  | stop p => rfl
  | token e r =>
    obtain ⟨first, d', rfl, hr, rfl⟩ := HufRun.turn_token ht
    obtain ⟨he, -, -, -, hd'⟩ := HufDec.readCode_ok hr
    have hset : e.cls.inSet d'.color = true := by rw [hd']; exact inSet_of_mem_codeSet _ e he
    dsimp only [Turn.take_token]
    rw [exec_code (codeEntry_instr _ e he), acceptCode_read (s := { s with hufDec := some d' }) ha rfl hset]
    exact settleHuf_set_hufDec s d' fun _ => HufRun.accept_raised

end Sys2Proof.Machine
end

section
/-! O58. The sessions of a state and the operation in progress are in range; an operation works on the sessions and ends, and a
turn hands its context on or ends the operation. -/

namespace Sys2Proof.Machine

/-! ## The sessions -/

/-- R21 to R37: every open session is in its range. -/
structure SessionsInRange (s : State) : Prop where
  bw : s.bw.all (BitWriter.wf s.params) = true
  br : s.br.all BitReader.wf = true
  hufEnc : s.hufEnc.all (HufEnc.wf s.params) = true
  hufDec : s.hufDec.all HufDec.wf = true
  a85Enc : s.a85Enc.all (A85Enc.wf s.params) = true

theorem State.wf_iff {s : State} :
    s.wf = true ↔ SessionsInRange s ∧ s.active.all (Active.wf s.params s.hufDec) = true := by
  unfold State.wf
  simp only [Bool.and_eq_true]
  constructor
  · rintro ⟨⟨⟨⟨⟨h₁, h₂⟩, h₃⟩, h₄⟩, h₅⟩, h₆⟩
    exact ⟨⟨h₁, h₂, h₃, h₄, h₅⟩, h₆⟩
  · rintro ⟨⟨h₁, h₂, h₃, h₄, h₅⟩, h₆⟩
    exact ⟨⟨⟨⟨⟨h₁, h₂⟩, h₃⟩, h₄⟩, h₅⟩, h₆⟩

namespace SessionsInRange

variable {s : State}

theorem set_queue (h : SessionsInRange s) (q : List Command) : SessionsInRange { s with queue := q } :=
  ⟨h.bw, h.br, h.hufEnc, h.hufDec, h.a85Enc⟩

theorem set_rm (h : SessionsInRange s) (x : Option Run) : SessionsInRange { s with rm := x } :=
  ⟨h.bw, h.br, h.hufEnc, h.hufDec, h.a85Enc⟩

theorem popDraw (h : SessionsInRange s) : SessionsInRange s.popDraw := ⟨h.bw, h.br, h.hufEnc, h.hufDec, h.a85Enc⟩

theorem openSession (h : SessionsInRange s) (u : Session) : SessionsInRange (s.openSession u) :=
  ⟨h.bw, h.br, h.hufEnc, h.hufDec, h.a85Enc⟩

theorem close (h : SessionsInRange s) (u : Session) : SessionsInRange (s.close u) := by
  cases u with
  | bitWriter => exact { h with bw := rfl }
  | bitReader => exact { h with br := rfl }
  | hufEnc => exact { h with hufEnc := rfl }
  | hufDec => exact { h with hufDec := rfl }
  | a85Enc => exact { h with a85Enc := rfl }
  | _ => exact h

theorem set_bw (h : SessionsInRange s) {b : BitWriter} (hb : b.wf s.params = true) :
    SessionsInRange { s with bw := some b } := { h with bw := hb }

theorem set_br (h : SessionsInRange s) {r : BitReader} (hr : r.wf = true) : SessionsInRange { s with br := some r } :=
  { h with br := hr }

theorem set_hufEnc (h : SessionsInRange s) {e : HufEnc} (he : e.wf s.params = true) :
    SessionsInRange { s with hufEnc := some e } := { h with hufEnc := he }

theorem set_hufDec (h : SessionsInRange s) {d : HufDec} (hd : d.wf = true) : SessionsInRange { s with hufDec := some d } :=
  { h with hufDec := hd }

theorem set_a85Enc (h : SessionsInRange s) {c : A85Enc} (hc : c.wf s.params = true) :
    SessionsInRange { s with a85Enc := some c } := { h with a85Enc := hc }

theorem dec (h : SessionsInRange s) {d : HufDec} (hd : s.hufDec = some d) : d.InRange := by
  have hwf := h.hufDec
  rw [hd] at hwf
  exact HufDec.wf_iff.1 hwf

/-- Between operations the sessions are all there is. -/
theorem finish_wf (h : SessionsInRange s) (u : Session) (st : Status) (r : Result) : (s.finish u st r).wf = true :=
  State.wf_iff.2 ⟨⟨h.bw, h.br, h.hufEnc, h.hufDec, h.a85Enc⟩, rfl⟩

theorem raise_wf (h : SessionsInRange s) (u : Session) (e : ErrorKind) : (s.raise u e).wf = true := by
  by_cases he : e = .invalidOperand
  · rw [he, State.raise_invalidOperand]; exact h.finish_wf _ _ _
  · rw [State.raise_of_ne s u e he]; exact (h.close u).finish_wf _ _ _

end SessionsInRange

/-! ## Answers in range -/

/-- A next state has every register in its range. -/
def AnswersInRange (a : Answer) : Prop := ∀ t, a = .next t → t.wf = true

namespace AnswersInRange

variable {s s' : State} {u : Session}

theorem refused (r : Refusal) : AnswersInRange (.refused r) := fun _ h => by cases h

theorem fault (f : Fault) : AnswersInRange (.fault f) := fun _ h => by cases h

theorem next {t : State} (h : t.wf = true) : AnswersInRange (.next t) := by rintro _ ⟨⟩; exact h

theorem raise (h : SessionsInRange s) (e : ErrorKind) : AnswersInRange (.next (s.raise u e)) := next (h.raise_wf u e)

/-! ### Operations with one turn -/

theorem complete_pure (h : SessionsInRange s') (st : Status) (r : Result) :
    AnswersInRange (s.complete u (pure (s'.finish u st r))) := next (h.finish_wf u st r)

theorem complete_error (h : SessionsInRange s) (e : ErrorKind) : AnswersInRange (s.complete u (.error e)) := raise h e

theorem complete_bind {α : Type} {x : Except ErrorKind α} {f : α → Except ErrorKind State} (h : SessionsInRange s)
    (hf : ∀ a, x = .ok a → AnswersInRange (s.complete u (f a))) : AnswersInRange (s.complete u (x >>= f)) := by
  cases x with
  | ok a => exact hf a rfl
  | error e => exact complete_error h e

/-! ### Turns -/

theorem settle {α : Type} {mk : α → Active} {p : Progress α} (h : SessionsInRange s)
    (hp : p.All fun c => (mk c).wf s.params s.hufDec = true) : AnswersInRange (Machine.settle u mk s p) := by
  cases p with
  | more c => exact next (State.wf_iff.2 ⟨⟨h.bw, h.br, h.hufEnc, h.hufDec, h.a85Enc⟩, hp⟩)
  | done c st r => exact next (h.finish_wf u st r)
  | raised e => exact raise h e
  | stuck f => exact fault f

/-- The whole of a single-operation unit's loop, which leaves no context. -/
theorem settle_opened {α : Type} {mk : α → Active} {p : Progress α} (h : SessionsInRange s) (hp : ∀ c, p ≠ .more c) :
    AnswersInRange (Machine.settle u mk (s.openSession u) p) := by
  cases p with
  | more c => exact absurd rfl (hp c)
  | done c st r => exact next ((h.openSession u).finish_wf u st r)
  | raised e => exact raise (h.openSession u) e
  | stuck f => exact fault f

theorem settleHuf {p : Progress HufRun} (h : SessionsInRange s) (hp : p.All fun r => r.dec.wf = true) :
    AnswersInRange (Machine.settleHuf s p) := by
  cases p with
  | more r =>
    have h' := h.set_hufDec hp
    exact next (State.wf_iff.2 ⟨⟨h'.bw, h'.br, h'.hufEnc, h'.hufDec, h'.a85Enc⟩, rfl⟩)
  | done r st res =>
    simp only [Machine.settleHuf]
    split
    · exact next ((h.set_hufDec hp).finish_wf _ _ _)
    · exact next ((h.close _).finish_wf _ _ _)
  | raised e => exact raise h e
  | stuck f => exact fault f

/-! ### The opening of an operation -/

theorem operation {body : State → Answer} (h : SessionsInRange s)
    (hb : SessionsInRange s.popDraw → AnswersInRange (body s.popDraw)) : AnswersInRange (Machine.operation u s body) := by
  obtain ⟨a, -, hr⟩ | ⟨-, -, hr⟩ | ⟨-, hr⟩ := operation_cases u s body <;> rw [hr]
  · exact refused _
  · exact raise h.popDraw _
  · exact hb h.popDraw

end AnswersInRange

/-! ## The operations of R71 -/

section

variable {s : State} (h : SessionsInRange s)

include h

theorem execRmSet_inRange (sample : PixelSample) (count : Nat) : AnswersInRange (execRmSet sample count s) :=
  .operation h fun h => .complete_bind h fun _ _ => .complete_pure (h.set_rm _) _ _

theorem execRmGet_inRange : AnswersInRange (execRmGet s) :=
  .operation h fun h => .complete_bind h fun _ _ => .complete_pure h _ _

theorem execBwInit_inRange (order : Nat) : AnswersInRange (execBwInit order s) :=
  .operation h fun h => .complete_bind h fun o _ =>
    .complete_pure ((h.openSession _).set_bw (BitWriter.fresh_wf _ o)) _ _

theorem execBwWrite_inRange (value : Word16) (width : Nat) : AnswersInRange (execBwWrite value width s) := by
  refine .operation h fun h => .complete_bind h fun _ _ => .complete_bind h fun b hb => .complete_bind h fun b' hb' => ?_
  have hwf := h.bw
  rw [requireSession_ok hb] at hwf
  exact .complete_pure (h.set_bw (BitWriter.writeBits_wf hwf hb').1) _ _

theorem execBwFlush_inRange : AnswersInRange (execBwFlush s) :=
  .operation h fun h => .complete_bind h fun _ _ => .complete_bind h fun _ _ => .complete_pure (h.close _) _ _

theorem execBrInit_inRange (order : Nat) (input : List Byte) : AnswersInRange (execBrInit order input s) :=
  .operation h fun h => .complete_bind h fun _ _ =>
    .complete_pure ((h.openSession _).set_br (BitReader.wf_iff.2 (Nat.zero_le _))) _ _

theorem execBrRead_inRange (width : Nat) : AnswersInRange (execBrRead width s) := by
  refine .operation h fun h => .complete_bind h fun _ _ => .complete_bind h fun r hr => ?_
  have hwf := h.br
  rw [requireSession_ok hr] at hwf
  cases hv : r.readBits width with
  | some x => exact .complete_pure (h.set_br (BitReader.readBits_wf hwf hv)) _ _
  | none => exact .complete_pure h _ _

theorem execHufEncBegin_inRange (columns : Nat) : AnswersInRange (execHufEncBegin columns s) := by
  refine .operation h fun h => .complete_bind h fun _ hcol => .complete_pure ((h.openSession _).set_hufEnc ?_) _ _
  exact HufEnc.wf_iff.2 ⟨require_ok hcol, rfl, BitWriter.fresh_wf _ _, Nat.zero_le _⟩

theorem execHufEncLine_inRange (line : Line) : AnswersInRange (execHufEncLine line s) := by
  refine .operation h fun h => .complete_bind h fun _ _ => .complete_bind h fun e he => ?_
  have hwf := h.hufEnc
  rw [requireSession_ok he] at hwf
  split
  · exact .complete_error h _
  · exact .complete_bind h fun e' he' => .complete_pure (h.set_hufEnc (HufEnc.encodeLine_wf hwf he')) _ _

theorem execHufEncEnd_inRange : AnswersInRange (execHufEncEnd s) :=
  .operation h fun h => .complete_bind h fun _ _ => .complete_bind h fun _ _ => .complete_bind h fun _ _ =>
    .complete_pure (h.close _) _ _

theorem execHufDecBegin_inRange (input : List Byte) (columns : Nat) : AnswersInRange (execHufDecBegin input columns s) := by
  refine .operation h fun h => .complete_bind h fun _ hcol => .complete_pure ((h.openSession _).set_hufDec ?_) _ _
  exact HufDec.wf_iff.2 {
    columns := require_ok hcol, order := rfl, reader := BitReader.wf_iff.2 (Nat.zero_le _), sbLen := Nat.zero_le _
    fits := Nat.zero_le _, pending := .inr rfl, held := (by decide : 0 < hufBlankLinesEop), rowsOut := nofun }

/-- R142, R150: both operations run the loop on the open session. -/
theorem settleHuf_run_inRange {d : HufDec} (hd : s.hufDec = some d) (mode : HufMode) :
    AnswersInRange (Machine.settleHuf s (d.run mode)) :=
  .settleHuf h ((HufDec.run_all (h.dec hd) mode).imp fun _ hc => HufDec.wf_iff.2 hc.inRange)

theorem execHufDecLine_inRange : AnswersInRange (execHufDecLine s) := by
  refine .operation h fun h => ?_
  split
  · exact .raise h _
  · exact settleHuf_run_inRange h ‹_› _

theorem execHufDecPage_inRange (rows : Nat) : AnswersInRange (execHufDecPage rows s) := by
  refine .operation h fun h => ?_
  split
  · exact .raise h _
  · exact settleHuf_run_inRange h ‹_› _

theorem execLzwEnc_inRange (input : List Byte) : AnswersInRange (execLzwEnc input s) :=
  .operation h fun h => .settle_opened h (LzwEnc.run_ne_more _ _)

theorem execLzwDec_inRange (input : List Byte) (expected : Nat) : AnswersInRange (execLzwDec input expected s) :=
  .operation h fun h => .settle_opened h (runLoop_ne_more _ _)

theorem execSbPack_inRange (input : List Byte) : AnswersInRange (execSbPack input s) :=
  .operation h fun h => .settle_opened h (runLoop_ne_more _ _)

theorem execSbUnpack_inRange (input : List Byte) : AnswersInRange (execSbUnpack input s) :=
  .operation h fun h => .settle_opened h (runLoop_ne_more _ _)

theorem execPbEnc_inRange (input : List Byte) : AnswersInRange (execPbEnc input s) :=
  .operation h fun h => .settle_opened h (runLoop_ne_more _ _)

theorem execPbDec_inRange (input : List Byte) (total : Nat) : AnswersInRange (execPbDec input total s) :=
  .operation h fun h => .settle_opened h (runLoop_ne_more _ _)

theorem execCvEnc_inRange (runs : List CvRun) (total : Nat) : AnswersInRange (execCvEnc runs total s) := by
  refine .operation h fun h => ?_
  split
  · exact .raise h _
  split
  · exact .raise h _
  · exact .settle_opened h (runLoop_ne_more _ _)

theorem execCvDec_inRange (input : List Byte) (total : Nat) : AnswersInRange (execCvDec input total s) :=
  .operation h fun h => .settle_opened h (runLoop_ne_more _ _)

/-- R250: the session that a byte continues, or opens, is in range. -/
theorem A85Enc.continued_wf : (A85Enc.continued s.a85Enc).wf s.params = true := by
  have hwf := h.a85Enc
  cases hc : s.a85Enc with
  | some c => rw [hc] at hwf; exact hwf
  | none => exact A85Enc.wf_iff.2 ⟨Nat.zero_lt_succ 3, Nat.zero_le _, Nat.zero_le _, fun k => .inr (zero_pending k)⟩

theorem execA85EncByte_inRange (b : Byte) : AnswersInRange (execA85EncByte b s) := by
  refine .operation h fun h => .complete_bind h fun c hc => .complete_pure ?_ _ _
  have hwf := A85Enc.byte_wf (A85Enc.continued_wf h) hc
  split
  · exact (h.openSession _).set_a85Enc hwf
  · exact h.set_a85Enc hwf

theorem execA85EncEnd_inRange : AnswersInRange (execA85EncEnd s) :=
  .operation h fun h => .complete_bind h fun _ _ => .complete_pure (h.close _) _ _

theorem execA85Dec_inRange (input : List Byte) : AnswersInRange (execA85Dec input s) :=
  .operation h fun h => .settle_opened h (runLoop_ne_more _ _)

theorem execReservedOpcode_inRange (b : Byte) : AnswersInRange (execReservedOpcode b s) := by
  unfold execReservedOpcode
  split
  · exact .refused _
  · exact .raise h _

theorem refuseOperands_inRange (opcode : Byte) : AnswersInRange (refuseOperands opcode s) :=
  .operation h fun h => .raise h _

/-- R55: a command runs to its end, so it needs and leaves the sessions only. -/
theorem exec_command_inRange {i : Instr} (hi : (encodeCommand i).isSome = true) : AnswersInRange (exec i s) := by
  cases i with
  | rmSet sample count => exact execRmSet_inRange h sample count
  | rmGet => exact execRmGet_inRange h
  | bwInit order => exact execBwInit_inRange h order
  | bwWrite value width => exact execBwWrite_inRange h value width
  | bwFlush => exact execBwFlush_inRange h
  | brInit order input => exact execBrInit_inRange h order input
  | brRead width => exact execBrRead_inRange h width
  | hufEncBegin columns => exact execHufEncBegin_inRange h columns
  | hufEncLine line => exact execHufEncLine_inRange h line
  | hufEncEnd => exact execHufEncEnd_inRange h
  | hufDecBegin input columns => exact execHufDecBegin_inRange h input columns
  | hufDecLine => exact execHufDecLine_inRange h
  | hufDecPage rows => exact execHufDecPage_inRange h rows
  | lzwEnc input => exact execLzwEnc_inRange h input
  | lzwDec input expected => exact execLzwDec_inRange h input expected
  | sbPack input => exact execSbPack_inRange h input
  | sbUnpack input => exact execSbUnpack_inRange h input
  | pbEnc input => exact execPbEnc_inRange h input
  | pbDec input total => exact execPbDec_inRange h input total
  | cvEnc runs total => exact execCvEnc_inRange h runs total
  | cvDec input total => exact execCvDec_inRange h input total
  | a85EncByte b => exact execA85EncByte_inRange h b
  | a85EncEnd => exact execA85EncEnd_inRange h
  | a85Dec input => exact execA85Dec_inRange h input
  | reservedOpcode b => exact execReservedOpcode_inRange h b
  | _ => cases hi

end

/-! ## The step -/

/-- R71: the instruction an opcode builds has the opcode in its command word. -/
theorem buildInstr_encode {op : Opcode} {args : List Operand} {i : Instr} (h : buildInstr op args = some i) :
    ∃ c, encodeCommand i = some c ∧ c.opcode = op.byte := by
  unfold buildInstr at h
  split at h <;> first
    | (cases h; exact ⟨_, rfl, rfl⟩)
    | (split at h <;> first | (cases h; exact ⟨_, rfl, rfl⟩) | cases h)
    | cases h

/-- R71: an opcode byte names the operation of its row. -/
theorem decodeOpcode_byte {b : Byte} {op : Opcode} (h : decodeOpcode b = some op) : op.byte = b := by
  obtain ⟨r, hr, rfl⟩ := Option.map_eq_some_iff.1 h
  have hrows : ∀ r ∈ opcodeTable, r.2.byte = r.1 := by decide
  exact (hrows r (List.mem_of_find?_eq_some hr)).trans (by simpa using List.find?_some hr)

/-- R71, R72: an instruction read from a command has the command's opcode in its command word. -/
theorem decode_command_encode {opcode : Byte} {args : List Operand} {i : Instr}
    (h : decode (.command opcode args) = .ok i) : ∃ c, encodeCommand i = some c ∧ c.opcode = opcode := by
  simp only [decode, decodeCommand] at h
  split at h
  · cases h; exact ⟨_, rfl, rfl⟩
  · rename_i op hop
    split at h
    · rename_i j hj
      cases h
      obtain ⟨c, hc, ho⟩ := buildInstr_encode hj
      exact ⟨c, hc, ho.trans (decodeOpcode_byte hop)⟩
    · cases h

/-- R55: what a step between operations comes to: nothing, the next command's instruction, or the refusal of its operands. -/
theorem step_none_cases {s t : State} (ha : s.active = none) (h : step s = .next t) :
    t = s ∨ ∃ c q, s.queue = c :: q ∧
      ((∃ i k, exec i { s with queue := q } = .next t ∧ encodeCommand i = some k ∧ k.opcode = c.opcode) ∨
        refuseOperands c.opcode { s with queue := q } = .next t) := by
  cases hq : s.queue with
  | nil => rw [step_idle ha hq] at h; cases h; exact .inl rfl
  | cons c q =>
    refine .inr ⟨c, q, rfl, ?_⟩
    cases hd : decode (.command c.opcode c.operands) with
    | ok i =>
      obtain ⟨k, hk, ho⟩ := decode_command_encode hd
      rw [step_command ha hq hd] at h
      exact .inl ⟨i, k, h, hk, ho⟩
    | error e => rw [step_bad_command ha hq hd] at h; exact .inr h

/-- R34: a step inside an operation. -/
theorem step_active_inRange {s : State} {a : Active} (h : SessionsInRange s) (ha : s.active = some a)
    (hwf : a.wf s.params s.hufDec = true) : AnswersInRange (step s) := by
  cases a with
  | hufDec mode phase =>
    obtain ⟨d, hd⟩ := Option.isSome_iff_exists.1 hwf
    have hturn := HufRun.advance_all (r := ⟨d, mode, phase⟩) (h.dec hd)
    rw [step_hufDec_turn ha hd]
    exact .settleHuf h (hturn.imp fun _ hc => HufDec.wf_iff.2 hc.inRange)
  | lzwEnc c => rw [step_lzwEnc ha]; exact .settle h (LzwEnc.advance_all hwf)
  | lzwDec c =>
    rw [step_lzwDec_turn ha (LzwDec.wf_iff.1 hwf).order]
    exact .settle h (LzwDec.advance_all hwf)
  | sbPack c => rw [step_sbPack ha]; exact .settle h (sbPackTurn_all hwf)
  | sbUnpack c => rw [step_sbUnpack_turn ha]; exact .settle h (sbUnpackTurn_all hwf)
  | pbEnc c => rw [step_pbEnc ha]; exact .settle h (pbEncTurn_all hwf)
  | pbDec c => rw [step_pbDec_turn ha]; exact .settle h (PbDec.advance_all hwf)
  | cvEnc c => rw [step_cvEnc ha]; exact .settle h (CvEnc.advance_all hwf)
  | cvDec c => rw [step_cvDec_turn ha]; exact .settle h (CvDec.advance_all hwf)
  | a85Dec c => rw [step_a85Dec_turn ha]; exact .settle h (A85Dec.advance_all hwf)

/-- Settles O58: a command needs and leaves the sessions only (`exec_command_inRange`), and a step inside an operation is a turn
that keeps its context in range (`step_active_inRange`). -/
theorem stepKeepsRegistersInRange : Obligations.StepKeepsRegistersInRange := by
  intro s t hs ht
  obtain ⟨h, hactive⟩ := State.wf_iff.1 hs
  cases ha : s.active with
  | none =>
    obtain rfl | ⟨c, q, -, ⟨i, k, hi, hk, -⟩ | hr⟩ := step_none_cases ha ht
    · exact hs
    · exact exec_command_inRange (h.set_queue q) (by rw [hk]; rfl) t hi
    · exact refuseOperands_inRange (h.set_queue q) _ t hr
  | some a =>
    rw [ha] at hactive
    exact step_active_inRange h ha hactive t ht

end Sys2Proof.Machine
end

section
/-! O55. A step that does not open the reader (the Huffman decoder) leaves its session closed, as it was, or later in the same
input; that it is not past the end is O58. -/

namespace Sys2Proof.Machine

/-! ## Instructions of the two sessions -/

theorem sessionOf_eq_bitReader {i : Instr} (h : sessionOf i = .bitReader) :
    (∃ o input, i = .brInit o input) ∨ ∃ w, i = .brRead w := by
  cases i with
  | brInit o input => exact .inl ⟨o, input, rfl⟩
  | brRead w => exact .inr ⟨w, rfl⟩
  | _ => cases h

theorem command_of_hufDec {i : Instr} (h : sessionOf i = .hufDec) (hi : (encodeCommand i).isSome = true) :
    (∃ input c, i = .hufDecBegin input c) ∨ i = .hufDecLine ∨ ∃ n, i = .hufDecPage n := by
  cases i with
  | hufDecBegin input c => exact .inl ⟨input, c, rfl⟩
  | hufDecLine => exact .inr (.inl rfl)
  | hufDecPage n => exact .inr (.inr ⟨n, rfl⟩)
  | _ => nomatch h, hi

/-! ## The bit reader -/

/-! ## Shared answers -/

theorem State.complete_cases {s t : State} {u : Session} {x : Except ErrorKind State} (h : s.complete u x = .next t) :
    x = .ok t ∨ ∃ e, t = s.raise u e := by
  cases x with
  | ok v => cases h; exact .inl rfl
  | error e => cases h; exact .inr ⟨e, rfl⟩

/-- R72, R282: a refusal of operands is an error of the operation. -/
theorem refuseOperands_raise {opcode : Byte} {s t : State} (h : refuseOperands opcode s = .next t) :
    ∃ e, t = s.popDraw.raise (sessionOfOpcode opcode) e := by
  obtain ⟨a, -, ho⟩ | ⟨-, -, ho⟩ | ⟨-, ho⟩ := operation_cases (sessionOfOpcode opcode) s _ <;>
    rw [refuseOperands, ho] at h <;> cases h
  · exact ⟨_, rfl⟩
  · exact ⟨_, rfl⟩

/-- R285: an error leaves the reader as it was, or closes it. -/
theorem State.br_of_raise {s : State} {u : Session} {e : ErrorKind} {r : BitReader} (h : (s.raise u e).br = some r) :
    s.br = some r := by
  rw [State.raise_br] at h
  split at h
  · cases h
  · exact h

/-- R285: an error leaves the Huffman decoder as it was, or closes it. -/
theorem State.hufDec_of_raise {s : State} {u : Session} {e : ErrorKind} {d : HufDec} (h : (s.raise u e).hufDec = some d) :
    s.hufDec = some d := by
  rw [State.raise_hufDec] at h
  split at h
  · cases h
  · exact h

/-- R34, R56: a step inside an operation writes only what belongs to its session. -/
theorem step_active_confines {s : State} {a : Active} (ha : s.active = some a) (hwf : a.wf s.params s.hufDec = true) :
    Confines a.session s (step s) := by
  cases a with
  | hufDec mode phase =>
    obtain ⟨d, hd⟩ := Option.isSome_iff_exists.1 hwf
    rw [step_hufDec_turn ha hd]
    exact .settleHuf _
  | lzwEnc c => rw [step_lzwEnc ha]; exact .settle _ _
  | lzwDec c => rw [step_lzwDec_turn ha (LzwDec.wf_iff.1 hwf).order]; exact .settle _ _
  | sbPack c => rw [step_sbPack ha]; exact .settle _ _
  | sbUnpack c => rw [step_sbUnpack_turn ha]; exact .settle _ _
  | pbEnc c => rw [step_pbEnc ha]; exact .settle _ _
  | pbDec c => rw [step_pbDec_turn ha]; exact .settle _ _
  | cvEnc c => rw [step_cvEnc ha]; exact .settle _ _
  | cvDec c => rw [step_cvDec_turn ha]; exact .settle _ _
  | a85Dec c => rw [step_a85Dec_turn ha]; exact .settle _ _

/-! ## The bit reader -/

/-- R106, R107: the reader that `BR_READ` leaves open is the one it found, or that one after the read. -/
theorem execBrRead_br {s t : State} {width : Nat} {r' : BitReader} (h : execBrRead width s = .next t) (ht : t.br = some r') :
    s.br = some r' ∨ ∃ r v, s.br = some r ∧ r.readBits width = some (v, r') := by
  obtain ⟨a, -, ho⟩ | ⟨-, -, ho⟩ | ⟨-, ho⟩ := operation_cases .bitReader s _ <;> rw [execBrRead, ho] at h
  · cases h
  · cases h
    exact .inl (State.br_of_raise ht :)
  · obtain hok | ⟨e, rfl⟩ := State.complete_cases h
    · obtain ⟨-, -, hok⟩ := bind_ok hok
      obtain ⟨r, hr, hok⟩ := bind_ok hok
      split at hok
      · rename_i v r₁ hv
        cases hok; cases ht
        exact .inr ⟨r, v, requireSession_ok hr, hv⟩
      · cases hok
        exact .inl ht
    · exact .inl (State.br_of_raise ht :)

/-- R27, R51: the reader after a step that is not `BR_INIT`. -/
theorem step_br_readsOn {s t : State} {r r' : BitReader} (hs : s.wf = true) (h : step s = .next t) (hr : s.br = some r)
    (hr' : t.br = some r') (hinit : ∀ c q, s.queue = c :: q → s.active = none → c.opcode ≠ 0x13) : r.ReadsOn r' := by
  have hsame (heq : s.br = some r') : r.ReadsOn r' := by cases hr.symm.trans heq; exact .refl r
  have hactive := (State.wf_iff.1 hs).2
  cases ha : s.active with
  | some a =>
    rw [ha] at hactive
    have hconf := (step_active_confines ha hactive t h).1
    exact hsame ((hconf.br (by cases a <;> nofun)).symm.trans hr')
  | none =>
    obtain rfl | ⟨c, q, hq, ⟨i, k, hi, hk, ho⟩ | href⟩ := step_none_cases ha h
    · exact hsame hr'
    · by_cases hu : sessionOf i = .bitReader
      · obtain ⟨o, input, rfl⟩ | ⟨w, rfl⟩ := sessionOf_eq_bitReader hu
        · cases hk
          exact absurd ho.symm (hinit c q hq ha)
        · obtain heq | ⟨r₀, v, heq, hv⟩ := execBrRead_br hi hr'
          · exact hsame heq
          · cases hr.symm.trans heq
            exact BitReader.readBits_readsOn hv
      · exact hsame (((exec_confines i _ t hi).1.br hu).symm.trans hr')
    · obtain ⟨e, rfl⟩ := refuseOperands_raise href
      exact hsame (State.br_of_raise hr' :)

/-! ## The Huffman decoder -/

section

variable {s t : State} {d d' : HufDec} (hs : s.hufDec = some d) (ht : t.hufDec = some d')

include hs ht

/-- A turn, or a whole operation, that leaves the session open. -/
theorem settleHuf_continues {p : Progress HufRun} (hd : d.InRange) (hp : p.All fun r => d.Continues r.dec)
    (h : settleHuf s p = .next t) : d.Continues d' := by
  cases p with
  | more r => cases h; cases ht; exact hp
  | done r st res =>
    simp only [settleHuf] at h
    split at h
    · cases h; cases ht; exact hp
    · cases h; cases ht
  | raised e => cases h; cases hs.symm.trans (State.hufDec_of_raise ht); exact hd.continues
  | stuck f => cases h

/-- R142, R150: an operation that runs the loop on the open session. -/
theorem hufDec_operation_continues {body : State → Answer} {mode : HufMode} (h : operation .hufDec s body = .next t)
    (hbody : ∀ s d, s.hufDec = some d → body s = settleHuf s (d.run mode)) (hd : d.InRange) : d.Continues d' := by
  obtain ⟨a, -, ho⟩ | ⟨-, -, ho⟩ | ⟨-, ho⟩ := operation_cases .hufDec s body <;> rw [ho] at h
  · cases h
  · cases h; cases hs.symm.trans (State.hufDec_of_raise ht :); exact hd.continues
  · rw [hbody s.popDraw d hs] at h
    exact settleHuf_continues (s := s.popDraw) hs ht hd (HufDec.run_all hd mode) h

theorem execHufDecLine_continues (h : execHufDecLine s = .next t) (hd : d.InRange) : d.Continues d' := by
  unfold execHufDecLine at h
  exact hufDec_operation_continues (mode := .line) hs ht h (fun s d hs => by simp only [hs]) hd

theorem execHufDecPage_continues {n : Nat} (h : execHufDecPage n s = .next t) (hd : d.InRange) : d.Continues d' := by
  unfold execHufDecPage at h
  exact hufDec_operation_continues (mode := .page n) hs ht h (fun s d hs => by simp only [hs]) hd

end

/-- R29, R51: the Huffman decoder after a step that is not `HUF_DEC_BEGIN`. -/
theorem step_hufDec_continues {s t : State} {d d' : HufDec} (hs : s.wf = true) (h : step s = .next t)
    (hd : s.hufDec = some d) (hd' : t.hufDec = some d')
    (hinit : ∀ c q, s.queue = c :: q → s.active = none → c.opcode ≠ 0x24) : d.Continues d' := by
  obtain ⟨hsess, hactive⟩ := State.wf_iff.1 hs
  have hrange := hsess.dec hd
  have hsame (heq : s.hufDec = some d') : d.Continues d' := by cases hd.symm.trans heq; exact hrange.continues
  cases ha : s.active with
  | some a =>
    rw [ha] at hactive
    have hconf := (step_active_confines ha hactive t h).1
    cases a with
    | hufDec mode phase =>
      rw [step_hufDec_turn ha hd] at h
      exact settleHuf_continues hd hd' hrange (HufRun.advance_all (r := ⟨d, mode, phase⟩) hrange) h
    | _ => exact hsame ((hconf.hufDec nofun).symm.trans hd')
  | none =>
    obtain rfl | ⟨c, q, hq, ⟨i, k, hi, hk, ho⟩ | href⟩ := step_none_cases ha h
    · exact hsame hd'
    · by_cases hu : sessionOf i = .hufDec
      · obtain ⟨input, n, rfl⟩ | rfl | ⟨n, rfl⟩ := command_of_hufDec hu (by rw [hk]; rfl)
        · cases hk
          exact absurd ho.symm (hinit c q hq ha)
        · exact execHufDecLine_continues (s := { s with queue := q }) hd hd' hi hrange
        · exact execHufDecPage_continues (s := { s with queue := q }) hd hd' hi hrange
      · exact hsame (((exec_confines i _ t hi).1.hufDec hu).symm.trans hd')
    · obtain ⟨e, rfl⟩ := refuseOperands_raise href
      exact hsame (State.hufDec_of_raise hd' :)

/-- Settles O55: the reader and the decoder read on (`step_br_readsOn`, `step_hufDec_continues`), and the positions are in their
range after the step (`stepKeepsRegistersInRange`). -/
theorem inputsAreReadForwardAndNeverWritten : Obligations.InputsAreReadForwardAndNeverWritten := by
  intro s t hs h
  refine ⟨fun r r' hr hr' hinit => ?_, fun d d' hd hd' hinit => ?_⟩
  · obtain ⟨hinput, horder, hpos⟩ := step_br_readsOn hs h hr hr' hinit
    have hwf := (State.wf_iff.1 (stepKeepsRegistersInRange s t hs h)).1.br
    rw [hr'] at hwf
    exact ⟨hinput, horder, hpos, hinput ▸ BitReader.wf_iff.1 hwf⟩
  · obtain ⟨hrange, hcolumns, hinput, horder, hpos⟩ := step_hufDec_continues hs h hd hd' hinit
    exact ⟨hcolumns, hinput, horder, hpos, hinput ▸ BitReader.wf_iff.1 hrange.reader⟩

end Sys2Proof.Machine
end

section
/-! O45 and O43: a step between operations is the command at the head of the queue; each character of the Ascii85 decoder
settles one progress of its context, and the bytes it writes fit in `OUT_CAPACITY` or do not (`emitAll_eq`). -/

namespace Sys2Proof.Machine

/-! ## The next command -/

/-- Settles O45: the instruction the command decodes to is executed (`step_command`); a command that makes none is refused,
by its operands (`refuseOperands_ready`) or by its draw (`operation_allocFails_answered`). -/
theorem stepRunsTheNextCommand : Obligations.StepRunsTheNextCommand := by
  intro s ha
  refine ⟨step_idle ha, fun c q hq => ⟨fun i hd => step_command ha hq hd, ?_⟩⟩
  rintro e _ hd rfl
  rw [step_bad_command ha hq hd]
  refine ⟨fun hf => ?_, fun hf => ?_⟩
  · exact refuseOperands_ready ((State.ready_iff _).2 ⟨ha, hf⟩)
  · have hclose : { s with queue := q }.close (sessionOfOpcode c.opcode) =
        { s.close (sessionOfOpcode c.opcode) with queue := q } := by cases sessionOfOpcode c.opcode <;> rfl
    rw [refuseOperands, operation_allocFails_answered (s := { s with queue := q }) ha hf, hclose]
    rfl

/-! ## The Ascii85 characters -/

/-- R258: the four bytes of a word are those whose big-endian value it is. -/
theorem wordBytes_beValue {bytes : List Byte} (h : bytes.length = 4) : wordBytes (beValue bytes) = bytes := by
  obtain ⟨a, b, c, d, rfl⟩ := List.length_eq_four.1 h
  have := a.isLt; have := b.isLt; have := c.isLt; have := d.isLt
  simp only [beValue, wordBytes, List.foldl_cons, List.foldl_nil, List.cons.injEq, and_true]
  refine ⟨?_, ?_, ?_, ?_⟩ <;> apply BitVec.eq_of_toNat_eq <;> simp only [BitVec.toNat_ofNat] <;> omega

/-- R53: four bytes hold a number below `2^32`. -/
theorem beValue_lt {bytes : List Byte} (h : bytes.length = 4) : beValue bytes < 2 ^ 32 := by
  obtain ⟨a, b, c, d, rfl⟩ := List.length_eq_four.1 h
  have := a.isLt; have := b.isLt; have := c.isLt; have := d.isLt
  simp only [beValue, List.foldl_cons, List.foldl_nil]
  omega

@[simp] theorem wordBytes_length (w : Nat) : (wordBytes w).length = 4 := rfl

/-- R21, R285: an error of the Ascii85 decoder ends the operation; its unit holds no session to close. -/
theorem settle_a85Dec_raised (s : State) (e : ErrorKind) :
    settle .a85Dec .a85Dec s (.raised e) = .next (s.ended .a85Dec e.status .nothing) := by
  cases e <;> rfl

theorem settle_a85Dec_done (s : State) (c : A85Dec) (st : Status) (r : Result) :
    settle .a85Dec .a85Dec s (.done c st r) = .next (s.ended .a85Dec st r) := rfl

/-- R91: a character is taken by the decoder in progress. -/
theorem onA85Dec_active {s : State} {c : A85Dec} (ha : s.active = some (.a85Dec c)) (f : A85Dec → Progress A85Dec) :
    onA85Dec s f = settle .a85Dec .a85Dec s (f c) := by
  simp [onA85Dec, ha]

section

variable {p : Params} {c : A85Dec} (hcap : c.out.length ≤ p.outCapacity)

include hcap

/-- R62, R258: bytes that fit are emitted, others raise AllocationFailure. -/
theorem A85Dec.emitBytes_eq (bytes : List Byte) :
    c.emitBytes p bytes =
      if c.out.length + bytes.length ≤ p.outCapacity then .more { c with out := c.out ++ bytes }
      else .raised .allocationFailure := by
  rw [A85Dec.emitBytes, emitAll_eq _ _ _ hcap]
  split <;> rfl

/-- R258, R260: the fifth digit of a tuple. -/
theorem A85Dec.digit_fifth {d : Nat} (h4 : c.group.length = 4) :
    c.digit p d =
      if 2 ^ 32 ≤ value85 (c.group ++ [d]) then .raised .corruptBitstream
      else if c.out.length + 4 ≤ p.outCapacity then
        .more { c with group := [], out := c.out ++ wordBytes (value85 (c.group ++ [d])) }
      else .raised .allocationFailure := by
  have hlen : (c.group ++ [d]).length = 5 := by simp [h4]
  have hover : 2 ^ 32 - 1 < value85 (c.group ++ [d]) ↔ 2 ^ 32 ≤ value85 (c.group ++ [d]) := by omega
  simp only [A85Dec.digit, hlen, if_true, hover]
  rw [A85Dec.emitBytes_eq (c := { c with group := [] }) hcap]
  rfl

/-- R258: `z` between two tuples. -/
theorem A85Dec.zero_empty (h0 : c.group = []) :
    c.zero p =
      if c.out.length + 4 ≤ p.outCapacity then .more { c with out := c.out ++ [0, 0, 0, 0] }
      else .raised .allocationFailure := by
  rw [A85Dec.zero, if_neg (not_not_intro h0), A85Dec.emitBytes_eq hcap]
  rfl

/-- R261, R262: the end marker after a tuple of two to four digits. -/
theorem A85Dec.finish_short (h2 : 2 ≤ c.group.length) (h5 : c.group.length < 5) {w : Nat}
    (hw : value85 (c.group ++ List.replicate (5 - c.group.length) 84) = w) :
    c.finish p =
      if 2 ^ 32 ≤ w then .raised .corruptBitstream
      else if c.out.length + (c.group.length - 1) ≤ p.outCapacity then
        .done c .ok (.bytes (c.out ++ (wordBytes w).take (c.group.length - 1)))
      else .raised .allocationFailure := by
  have hne : c.group ≠ [] := fun h => by simp [h] at h2
  have htake : ((wordBytes w).take (c.group.length - 1)).length = c.group.length - 1 := by
    rw [List.length_take, wordBytes_length]; omega
  rw [A85Dec.finish, A85Dec.tail, if_neg hne, if_neg (by omega)]
  dsimp only
  rw [hw]
  by_cases hover : 2 ^ 32 ≤ w
  · rw [if_pos (by omega), if_pos hover]
    rfl
  · rw [if_neg (by omega), if_neg hover]
    show Progress.ofExcept _ (emitAll p.outCapacity c.out _) = _
    rw [emitAll_eq _ _ _ hcap, htake]
    split <;> rfl

end

/-- R261: the end marker between two tuples. -/
theorem A85Dec.finish_empty {p : Params} {c : A85Dec} (h0 : c.group = []) : c.finish p = .done c .ok (.bytes c.out) := by
  rw [A85Dec.finish, A85Dec.tail, if_pos h0]
  rfl

/-- R262: the end marker after one digit. -/
theorem A85Dec.finish_one {p : Params} {c : A85Dec} (h1 : c.group.length = 1) :
    c.finish p = .raised .corruptBitstream := by
  rw [A85Dec.finish, A85Dec.tail, if_neg (fun h => by simp [h] at h1), if_pos h1]
  rfl

/-- Settles O43: each character is settled as what the context comes to (`A85Dec.digit_fifth`, `A85Dec.zero_empty`,
`A85Dec.finish_short`), and the four bytes of the statement are those of the word (`wordBytes_beValue`). -/
theorem ascii85CharacterTokens : Obligations.Ascii85CharacterTokens := by
  intro s c ha hwf
  obtain ⟨-, h5, -, hcap⟩ := A85Dec.wf_iff.1 hwf
  have hskip : onA85Dec s A85Dec.skip = .next s := by rw [onA85Dec_active ha, A85Dec.skip, settle_more, ← ha]
  have hillegal : onA85Dec s (fun _ => A85Dec.illegal) = .next (s.ended .a85Dec .corruptBitstream .nothing) := by
    rw [onA85Dec_active ha]; exact settle_a85Dec_raised s _
  have hdigit (d : Nat) : exec (.a85Digit d) s = settle .a85Dec .a85Dec s (c.digit s.params d) := onA85Dec_active ha _
  have hzero : exec .a85Zero s = settle .a85Dec .a85Dec s (c.zero s.params) := onA85Dec_active ha _
  have hend : exec .a85End s = settle .a85Dec .a85Dec s (c.finish s.params) := onA85Dec_active ha _
  refine ⟨⟨hskip, fun b => ⟨hskip, hillegal⟩⟩, ?_, ?_, ?_, ?_, ?_, ?_, ?_, ?_, ?_, ?_, ?_⟩
  · intro d _ hlt
    rw [hdigit, A85Dec.digit, if_neg (by simp; omega), settle_more]
  · intro d _ h4 hover
    rw [hdigit, A85Dec.digit_fifth hcap h4, if_pos hover]
    exact settle_a85Dec_raised s _
  · intro d _ bytes h4 hlen hval hfit
    have hlt := beValue_lt hlen
    rw [hdigit, A85Dec.digit_fifth hcap h4, ← hval, if_neg (by omega), if_pos hfit, wordBytes_beValue hlen, settle_more]
  · intro hne
    rw [hzero, A85Dec.zero, if_pos hne]
    exact settle_a85Dec_raised s _
  · intro h0 hfit
    rw [hzero, A85Dec.zero_empty hcap h0, if_pos hfit, settle_more]
  · intro h0
    rw [hend, A85Dec.finish_empty h0, settle_a85Dec_done]
  · rintro (h1 | ⟨h2, hover⟩)
    · rw [hend, A85Dec.finish_one h1]
      exact settle_a85Dec_raised s _
    · rw [hend, A85Dec.finish_short hcap h2 h5 rfl, if_pos hover]
      exact settle_a85Dec_raised s _
  · intro bytes h2 hlen hval hfit
    have hlt := beValue_lt hlen
    rw [hend, A85Dec.finish_short hcap h2 h5 hval.symm, if_neg (by omega), if_pos hfit, wordBytes_beValue hlen,
      settle_a85Dec_done]
  · intro d _ h4 hlt hfull
    rw [hdigit, A85Dec.digit_fifth hcap h4, if_neg (by omega), if_neg (by omega)]
    exact settle_a85Dec_raised s _
  · intro h0 hfull
    rw [hzero, A85Dec.zero_empty hcap h0, if_neg (by omega)]
    exact settle_a85Dec_raised s _
  · intro h2 hlt hfull
    rw [hend, A85Dec.finish_short hcap h2 h5 rfl, if_neg (by omega), if_neg (by omega)]
    exact settle_a85Dec_raised s _

end Sys2Proof.Machine
end

section
/-! O44. Bytes after the end: a decoder's context with bytes appended to its input takes every turn as the context without
them does, unless that one fails; so a loop that returns, returns the same. -/

namespace Sys2Proof.Machine

/-! ## A turn carried over to another context -/

/-- `q` goes on and returns as `p` does, with `f` applied to the context, unless `p` fails. -/
def Progress.Carries {α : Type} (f : α → α) (p q : Progress α) : Prop :=
  match p with
  | .more c => q = .more (f c)
  | .done c st r => q = .done (f c) st r
  | .raised _ => True
  | .stuck _ => True

section

variable {α β : Type} {f : α → α}

theorem Progress.carries_ofExcept {k k' : β → Progress α} (x : Except ErrorKind β) (h : ∀ b, (k b).Carries f (k' b)) :
    (Progress.ofExcept k x).Carries f (Progress.ofExcept k' x) := by
  cases x with
  | ok b => exact h b
  | error e => trivial

theorem Progress.carries_ite {P : Prop} [Decidable P] {p p' q q' : Progress α} (hp : P → p.Carries f p')
    (hq : ¬ P → q.Carries f q') : (if P then p else q).Carries f (if P then p' else q') := by
  by_cases h : P
  · rw [if_pos h, if_pos h]; exact hp h
  · rw [if_neg h, if_neg h]; exact hq h

/-- A loop whose turns carry over carries over as a whole; more turns may be allowed to it. -/
theorem runLoop_carries {turn : α → Progress α} (hturn : ∀ c, (turn c).Carries f (turn (f c))) {fuel fuel' : Nat}
    (hle : fuel ≤ fuel') (c : α) : (runLoop turn fuel c).Carries f (runLoop turn fuel' (f c)) := by
  induction fuel generalizing fuel' c with
  | zero => trivial
  | succ n ih =>
    obtain ⟨m, rfl⟩ := Nat.exists_eq_add_of_le' (show 1 ≤ fuel' by omega)
    have ht := hturn c
    cases h : turn c with
    | more c' =>
      rw [h] at ht
      rw [runLoop_more h, runLoop_more ht]
      exact ih (by omega) c'
    | done c' st r =>
      rw [h] at ht
      rw [runLoop_done h, runLoop_done ht]
      rfl
    | raised e => rw [runLoop_raised h]; trivial
    | stuck x => simp only [runLoop, h]; trivial

/-- A decode that ended with OK ended by returning, and so does one that its turns carry over to. -/
theorem operation_carries {u : Session} {mk : α → Active} {turn : Params → α → Progress α} {fuel fuel' : Nat} {c : α}
    {s t : State} (hturn : ∀ p c, (turn p c).Carries f (turn p (f c))) (hle : fuel ≤ fuel')
    (hok : t.status.get u = some .ok)
    (h : operation u s (fun s => settle u mk (s.openSession u) (runLoop (turn s.params) fuel c)) = .next t) :
    operation u s (fun s => settle u mk (s.openSession u) (runLoop (turn s.params) fuel' (f c))) = .next t := by
  have hraise {v : State} {e : ErrorKind} (hv : v.raise u e = t) : False := by
    rw [← hv, State.raise_status, Statuses.get_set_self] at hok
    cases e <;> cases hok
  obtain ⟨a, -, ho⟩ | ⟨-, -, ho⟩ | ⟨hs, ho⟩ := operation_cases u s
    (fun s => settle u mk (s.openSession u) (runLoop (turn s.params) fuel c)) <;> rw [ho] at h
  · cases h
  · injection h with hv
    exact (hraise hv).elim
  · have hrun := runLoop_carries (hturn s.popDraw.params) hle c
    rw [operation_ready hs]
    cases hr : runLoop (turn s.popDraw.params) fuel c with
    | more c' => exact absurd hr (runLoop_ne_more fuel c c')
    | done c' st r => rw [hr] at h hrun; rw [hrun]; exact h
    | raised e => rw [hr] at h; injection h with hv; exact (hraise hv).elim
    | stuck x => rw [hr] at h; cases h

end

/-! ## The decoders -/

section

variable (extra : List Byte)

/-- The context with bytes appended to its input. -/
def ByteCoder.extend (c : ByteCoder) : ByteCoder := { c with input := c.input ++ extra }

@[inherit_doc ByteCoder.extend] def PbDec.extend (c : PbDec) : PbDec := { c with input := c.input ++ extra }

@[inherit_doc ByteCoder.extend] def CvDec.extend (c : CvDec) : CvDec := { c with input := c.input ++ extra }

@[inherit_doc ByteCoder.extend] def A85Dec.extend (c : A85Dec) : A85Dec := { c with input := c.input ++ extra }

@[inherit_doc ByteCoder.extend] def BitReader.extend (r : BitReader) : BitReader := { r with input := r.input ++ extra }

@[inherit_doc ByteCoder.extend] def LzwDec.extend (c : LzwDec) : LzwDec := { c with br := c.br.extend extra }

variable {extra} {p : Params}

/-- A byte that stands in the input is the same with bytes after it. -/
theorem getElem?_append_of_some {input : List Byte} {i : Nat} {b : Byte} (h : input[i]? = some b) :
    (input ++ extra)[i]? = some b := by
  rw [List.getElem?_append_left (List.getElem?_eq_some_iff.1 h).1, h]

/-- Bytes taken inside the input are the same with bytes after it. -/
theorem take_drop_append {input : List Byte} {i k : Nat} (h : i + k ≤ input.length) :
    ((input ++ extra).drop i).take k = (input.drop i).take k := by
  rw [List.drop_append_of_le_length (by omega), List.take_append_of_le_length (by rw [List.length_drop]; omega)]

/-! ### Sub-blocks -/

theorem sbData_carries (c : ByteCoder) (len : Byte) :
    (sbData p c len).Carries (ByteCoder.extend extra) (sbData p (c.extend extra) len) := by
  by_cases hlen : c.input.length < c.i + len.toNat
  · rw [sbData, if_pos hlen]; trivial
  · have hlen' : ¬ (c.extend extra).input.length < (c.extend extra).i + len.toNat := by
      simp only [ByteCoder.extend, List.length_append]; omega
    have hrest : (c.extend extra).rest.take len.toNat = c.rest.take len.toNat :=
      take_drop_append (input := c.input) (i := c.i) (by omega)
    rw [sbData, sbData, if_neg hlen, if_neg hlen', hrest]
    simp only [ByteCoder.emitAt, ByteCoder.extend]
    cases emitAll p.outCapacity c.out (c.rest.take len.toNat) with
    | ok out => rfl
    | error e => trivial

theorem sbUnpackTurn_carries (c : ByteCoder) :
    (sbUnpackTurn p c).Carries (ByteCoder.extend extra) (sbUnpackTurn p (c.extend extra)) := by
  cases hb : c.input[c.i]? with
  | none => simp only [sbUnpackTurn, sbTurn, hb]; trivial
  | some b =>
    have hb' : (c.extend extra).input[(c.extend extra).i]? = some b := getElem?_append_of_some hb
    simp only [sbUnpackTurn, sbTurn, hb, hb', Turn.take_token]
    cases decodeSb b with
    | length len => exact sbData_carries { c with i := c.i + 1 } len
    | terminator => rfl

/-! ### PackBits -/

theorem PbDec.chunk_carries (c : PbDec) (bytes : List Byte) (i : Nat) :
    (c.chunk p bytes i).Carries (PbDec.extend extra) ((c.extend extra).chunk p bytes i) :=
  Progress.carries_ite (fun _ => trivial) fun _ => Progress.carries_ofExcept _ fun _ => rfl

theorem PbDec.accept_carries (c : PbDec) (t : PbTok) :
    (c.accept p t).Carries (PbDec.extend extra) ((c.extend extra).accept p t) := by
  cases t with
  | literal n =>
    by_cases hlen : c.input.length < c.i + (n.toNat + 1)
    · simp only [PbDec.accept, PbDec.literal, hlen, if_true]; trivial
    · have hlen' : ¬ (c.extend extra).input.length < (c.extend extra).i + (n.toNat + 1) := by
        simp only [PbDec.extend, List.length_append]; omega
      have hdata : ((c.extend extra).input.drop (c.extend extra).i).take (n.toNat + 1) =
          (c.input.drop c.i).take (n.toNat + 1) := take_drop_append (i := c.i) (by omega)
      simp only [PbDec.accept, PbDec.literal, hlen, hlen', hdata, if_false]
      exact PbDec.chunk_carries c _ _
  | illegal80 => trivial
  | rep x =>
    cases hb : c.input[c.i]? with
    | none => simp only [PbDec.accept, PbDec.rep, hb]; trivial
    | some b =>
      have hb' : (c.extend extra).input[(c.extend extra).i]? = some b := getElem?_append_of_some hb
      simp only [PbDec.accept, PbDec.rep, hb, hb']
      exact PbDec.chunk_carries c _ _

theorem PbDec.advance_carries (c : PbDec) :
    (c.advance p).Carries (PbDec.extend extra) ((c.extend extra).advance p) := by
  by_cases hlt : c.produced < c.total
  · have hlt' : (c.extend extra).produced < (c.extend extra).total := hlt
    cases hb : c.input[c.i]? with
    | none => simp only [PbDec.advance, PbDec.turn, hlt, hb, if_true]; trivial
    | some b =>
      have hb' : (c.extend extra).input[(c.extend extra).i]? = some b := getElem?_append_of_some hb
      simp only [PbDec.advance, PbDec.turn, hlt, hlt', hb, hb', if_true, Turn.take_token]
      exact PbDec.accept_carries { c with i := c.i + 1 } _
  · have hlt' : ¬ (c.extend extra).produced < (c.extend extra).total := hlt
    simp only [PbDec.advance, PbDec.turn, hlt, hlt', if_false]
    rfl

/-! ### Count/value -/

theorem decodeCv_append {n : Nat} {bytes : List Byte} {t : List Byte × Byte} (h : decodeCv n bytes = some t) :
    decodeCv n (bytes ++ extra) = some t := by
  obtain ⟨hlt, -, -⟩ := decodeCv_some (v := t.1) (k := t.2) h
  unfold decodeCv at h ⊢
  rw [List.drop_append_of_le_length hlt.le, List.take_append_of_le_length hlt.le]
  split at h
  · rename_i k ks hk
    rw [hk]
    exact h
  · cases h

theorem CvDec.packet_carries (c : CvDec) (value : List Byte) (k : Byte) :
    (c.packet value k).Carries (CvDec.extend extra) ((c.extend extra).packet value k) :=
  Progress.carries_ite (fun _ => trivial) fun _ => rfl

theorem CvDec.advance_carries (c : CvDec) :
    (c.advance p).Carries (CvDec.extend extra) ((c.extend extra).advance p) := by
  by_cases hlt : c.produced < c.total
  · have hlt' : (c.extend extra).produced < (c.extend extra).total := hlt
    cases hb : decodeCv p.sampleBytes (c.input.drop c.i) with
    | none => simp only [CvDec.advance, CvDec.turn, hlt, hb, if_true]; trivial
    | some t =>
      have hi : c.i ≤ c.input.length := by
        obtain ⟨hlen, -, -⟩ := decodeCv_some (v := t.1) (k := t.2) hb
        rw [List.length_drop] at hlen
        omega
      have hb' : decodeCv p.sampleBytes ((c.extend extra).input.drop (c.extend extra).i) = some t := by
        dsimp only [CvDec.extend]
        rw [List.drop_append_of_le_length hi]
        exact decodeCv_append hb
      simp only [CvDec.advance, CvDec.turn, hlt, hlt', hb, hb', if_true, Turn.take_token]
      exact CvDec.packet_carries { c with i := c.i + (p.sampleBytes + 1) } _ _
  · have hlt' : ¬ (c.extend extra).produced < (c.extend extra).total := hlt
    simp only [CvDec.advance, CvDec.turn, hlt, hlt', if_false]
    rfl

/-! ### Ascii85 -/

/-- R91, R260: only `~` looks at the byte after it, and without one it is illegal. -/
theorem decodeA85_follow (ch : Byte) (follow : Option Byte) :
    decodeA85 ch none = .illegal ch ∨ decodeA85 ch follow = decodeA85 ch none := by
  by_cases h : ch = 0x7E
  · subst h; exact .inl rfl
  · exact .inr (by simp only [decodeA85, h, if_false])

theorem A85Dec.accept_carries (c : A85Dec) (t : A85Tok) :
    (c.accept p t).Carries (A85Dec.extend extra) ((c.extend extra).accept p t) := by
  cases t with
  | digit d =>
    exact Progress.carries_ite
      (fun _ => Progress.carries_ite (fun _ => trivial) fun _ => Progress.carries_ofExcept _ fun _ => rfl) fun _ => rfl
  | zero => exact Progress.carries_ite (fun _ => trivial) fun _ => Progress.carries_ofExcept _ fun _ => rfl
  | stop => exact Progress.carries_ofExcept _ fun _ => rfl
  | linebreak => rfl
  | whitespace b => rfl
  | illegal b => trivial

theorem A85Dec.advance_carries (c : A85Dec) :
    (c.advance p).Carries (A85Dec.extend extra) ((c.extend extra).advance p) := by
  cases hb : c.input[c.i]? with
  | none => simp only [A85Dec.advance, A85Dec.turn, hb]; trivial
  | some ch =>
    have hb' : (c.extend extra).input[(c.extend extra).i]? = some ch := getElem?_append_of_some hb
    simp only [A85Dec.advance, A85Dec.turn, hb, hb', Turn.take_token]
    have hsame : decodeA85 ch c.input[c.i + 1]? = .illegal ch ∨
        decodeA85 ch (c.extend extra).input[c.i + 1]? = decodeA85 ch c.input[c.i + 1]? := by
      cases hf : c.input[c.i + 1]? with
      | none => exact decodeA85_follow ch _
      | some x => exact .inr (by rw [show (c.extend extra).input[c.i + 1]? = some x from getElem?_append_of_some hf])
    obtain hill | hsame := hsame
    · rw [hill]; trivial
    · show Progress.Carries _ _ (A85Dec.accept p _ (decodeA85 ch (c.extend extra).input[c.i + 1]?))
      rw [hsame]
      exact A85Dec.accept_carries { c with i := c.i + 1 } _

/-! ### LZW -/

/-- R106: a read inside the input. -/
theorem BitReader.readBits_extend {r r' : BitReader} {width v : Nat} (h : r.readBits width = some (v, r')) :
    (r.extend extra).readBits width = some (v, r'.extend extra) := by
  obtain ⟨hle, rfl, rfl⟩ := BitReader.readBits_some h
  have hrem : width ≤ (r.extend extra).remaining := by
    simp only [BitReader.remaining, BitReader.extend, List.length_append] at hle ⊢; omega
  have hbit : ∀ k < width, (r.extend extra).bitAt (r.bitpos + k) = r.bitAt (r.bitpos + k) := by
    intro k hk
    simp only [BitReader.remaining] at hle
    simp only [BitReader.bitAt, BitReader.extend, List.getD_eq_getElem?_getD]
    rw [List.getElem?_append_left (by omega)]
  have hpeek : (r.extend extra).peek width = r.peek width := by
    simp only [BitReader.peek, Nat.min_eq_left hle, Nat.min_eq_left hrem]
    exact List.map_congr_left fun k hk => hbit k (List.mem_range.1 hk)
  rw [BitReader.readBits, if_neg (by omega), hpeek]
  rfl

theorem LzwDec.grow_extend (c : LzwDec) (b : Byte) : (c.extend extra).grow b = (c.grow b).extend extra := by
  obtain ⟨br, entries, next, width, prev, produced, expected, out⟩ := c
  cases prev with
  | none => rfl
  | some k =>
    by_cases hlt : next < lzwDictCap
    · simp [LzwDec.grow, LzwDec.extend, hlt]
    · simp [LzwDec.grow, LzwDec.extend, hlt]

theorem LzwDec.emitString_carries (c : LzwDec) (k : Nat) (s : List Byte) :
    (c.emitString p k s).Carries (LzwDec.extend extra) ((c.extend extra).emitString p k s) := by
  refine Progress.carries_ofExcept _ fun out => Progress.carries_ite (fun _ => trivial) fun _ => ?_
  have hgrow := LzwDec.grow_extend (extra := extra) { c with out := out, produced := c.produced + s.length } (s.headD 0)
  exact congrArg (fun d : LzwDec => Progress.more { d with prev := some k }) hgrow

theorem LzwDec.accept_carries (c : LzwDec) (t : LzwTok) :
    (c.accept p t).Carries (LzwDec.extend extra) ((c.extend extra).accept p t) := by
  cases t with
  | literal b => exact LzwDec.emitString_carries c _ _
  | clear => rfl
  | stop =>
    exact Progress.carries_ite (fun _ => trivial) fun _ => rfl
  | string k =>
    have hstring : (c.extend extra).string k = c.string k := rfl
    simp only [LzwDec.accept, LzwDec.known, hstring]
    cases c.string k with
    | none => trivial
    | some s => exact LzwDec.emitString_carries c _ _
  | next =>
    have hstring : (c.extend extra).prev.bind (c.extend extra).string = c.prev.bind c.string := rfl
    simp only [LzwDec.accept, LzwDec.special, hstring]
    cases c.prev.bind c.string with
    | none => trivial
    | some s => exact LzwDec.emitString_carries c _ _
  | illegal k => trivial

theorem LzwDec.advance_carries (c : LzwDec) :
    (c.advance p).Carries (LzwDec.extend extra) ((c.extend extra).advance p) := by
  cases hr : c.br.readBits c.width with
  | none => simp only [LzwDec.advance, LzwDec.turn, hr]; trivial
  | some x =>
    have hr' : (c.extend extra).br.readBits (c.extend extra).width = some (x.1, x.2.extend extra) :=
      BitReader.readBits_extend hr
    simp only [LzwDec.advance, LzwDec.turn, hr, hr', Turn.take_token]
    exact LzwDec.accept_carries { c with br := x.2 } _

end

/-- Settles O44: the turns of each of the five decoders carry over to the longer input (`LzwDec.advance_carries` and its
like), so a decode that ended with OK does (`operation_carries`). -/
theorem bytesAfterTheEndAreNotRead : Obligations.BytesAfterTheEndAreNotRead := by
  intro s t input extra n
  have hlen : input.length ≤ (input ++ extra).length := by simp
  refine ⟨fun hok => ?_, fun hok => ?_, fun hok => ?_, fun hok => ?_, fun hok => ?_⟩
  · exact operation_carries (u := .lzwDec) (mk := .lzwDec) (f := LzwDec.extend extra) (c := LzwDec.fresh input n)
      (fun _ => LzwDec.advance_carries) (by omega) hok
  · exact operation_carries (u := .sbUnpack) (mk := .sbUnpack) (f := ByteCoder.extend extra) (c := ByteCoder.fresh input)
      (fun _ => sbUnpackTurn_carries) (by omega) hok
  · exact operation_carries (u := .pbDec) (mk := .pbDec) (f := PbDec.extend extra)
      (fun _ => PbDec.advance_carries) (by omega) hok
  · exact operation_carries (u := .cvDec) (mk := .cvDec) (f := CvDec.extend extra)
      (fun _ => CvDec.advance_carries) (by omega) hok
  · exact operation_carries (u := .a85Dec) (mk := .a85Dec) (f := A85Dec.extend extra)
      (fun _ => A85Dec.advance_carries) (by omega) hok

end Sys2Proof.Machine
end

section
/-! What the turn of each unit can end its operation with, for O56 and O57: a byte stream within `OUT_CAPACITY`, where the
context is within it; and the model can go on from every turn, that of the LZW decoder where its context is in range. -/

namespace Sys2Proof.Machine

/-! ## Results -/

/-- R62: a byte stream is within `OUT_CAPACITY`; rows and runs are not bounded by it (log 22). -/
def Result.Fits (cap : Nat) : Result → Prop
  | .bytes out => out.length ≤ cap
  | _ => True

/-- An operation that returns has one of the results `R`. -/
def Progress.Returns {α : Type} (R : Result → Prop) (p : Progress α) : Prop := ∀ c st r, p = .done c st r → R r

/-- An operation that returns has one of the results `R`, and the model can go on from the turn. -/
def Progress.Ends {α : Type} (R : Result → Prop) : Progress α → Prop
  | .more _ => True
  | .done _ _ r => R r
  | .raised _ => True
  | .stuck _ => False

namespace Progress

variable {α β : Type} {R R' : Result → Prop} {p : Progress α}

theorem Ends.imp (h : p.Ends R) (hR : ∀ r, R r → R' r) : p.Ends R' := by
  cases p with
  | more c => trivial
  | done c st r => exact hR r h
  | raised e => trivial
  | stuck f => exact h

theorem Ends.returns (h : p.Ends R) : p.Returns R := by
  rintro c st r rfl
  exact h

theorem Ends.returns_of {H : Prop} (h : p.Ends fun r => H → R r) (hH : H) : p.Returns R :=
  (h.imp fun _ hr => hr hH).returns

theorem Ends.ne_stuck (h : p.Ends R) (f : Fault) : p ≠ .stuck f := by
  rintro rfl
  exact h

theorem ends_ofExcept {k : β → Progress α} {x : Except ErrorKind β} (h : ∀ b, x = .ok b → (k b).Ends R) :
    (Progress.ofExcept k x).Ends R := by
  cases x with
  | ok b => exact h b rfl
  | error e => trivial

end Progress

section

variable {α : Type} {turn : α → Progress α} {R : Result → Prop}

/-- A context that a turn hands on has what every context of the turn has. -/
theorem Progress.All.of_more {P : α → Prop} {p : Progress α} {c : α} (h : p.All P) (hp : p = .more c) : P c := by
  subst hp
  exact h

/-- What a loop returns is what a turn from a context of its invariant returns. -/
theorem runLoop_returns {I : α → Prop} (hkeep : ∀ c, I c → (turn c).All I) (hturn : ∀ c, I c → (turn c).Returns R)
    (fuel : Nat) {c : α} (hc : I c) : (runLoop turn fuel c).Returns R := by
  obtain hrun | ⟨d, hd, hrun⟩ := runLoop_invariant I (fun c _ hc h => (hkeep c hc).of_more h) fuel c hc
  · rw [hrun]; exact nofun
  · exact hrun ▸ hturn d hd

/-- R331: a loop that ends with a turn from which the model can go on. -/
theorem run_ne_stuck {run : Progress α} (hends : ∃ d, turn d = run ∧ ∀ d', turn d ≠ .more d')
    {R : α → Result → Prop} (hturn : ∀ c, (turn c).Ends (R c)) (f : Fault) : run ≠ .stuck f := by
  obtain ⟨d, rfl, -⟩ := hends
  exact (hturn d).ne_stuck f

end

section

variable {p : Params}

/-! ## The byte coders -/

theorem sbPackTurn_ends (c : ByteCoder) :
    (sbPackTurn p c).Ends fun r => c.out.length ≤ p.outCapacity → r.Fits p.outCapacity := by
  unfold sbPackTurn
  split
  · exact Progress.ends_ofExcept fun _ _ => trivial
  · refine Progress.ends_ofExcept fun out hout _ => ?_
    obtain ⟨hlt, rfl⟩ := emit_ok_iff.1 hout
    simpa [Result.Fits] using hlt

theorem sbData_ends {R : Result → Prop} (c : ByteCoder) (len : Byte) : (sbData p c len).Ends R := by
  unfold sbData
  split
  · trivial
  · exact Progress.ends_ofExcept fun _ _ => trivial

theorem sbAccept_ends (c : ByteCoder) (t : SbTok) :
    (sbAccept p c t).Ends fun r => c.out.length ≤ p.outCapacity → r.Fits p.outCapacity := by
  cases t with
  | length len => exact sbData_ends c len
  | terminator => exact id

theorem sbUnpackTurn_ends (c : ByteCoder) :
    (sbUnpackTurn p c).Ends fun r => c.out.length ≤ p.outCapacity → r.Fits p.outCapacity := by
  unfold sbUnpackTurn sbTurn
  split
  · exact sbAccept_ends { c with i := c.i + 1 } _
  · trivial

theorem pbEncTurn_ends (c : ByteCoder) :
    (pbEncTurn p c).Ends fun r => c.out.length ≤ p.outCapacity → r.Fits p.outCapacity := by
  unfold pbEncTurn
  split
  · exact id
  · dsimp only
    split
    · exact Progress.ends_ofExcept fun _ _ => trivial
    · exact Progress.ends_ofExcept fun _ _ => trivial

/-! ## The PackBits decoder -/

theorem PbDec.chunk_ends {R : Result → Prop} (c : PbDec) (bytes : List Byte) (i : Nat) : (c.chunk p bytes i).Ends R := by
  unfold PbDec.chunk
  split
  · trivial
  · exact Progress.ends_ofExcept fun _ _ => trivial

theorem PbDec.accept_ends {R : Result → Prop} (c : PbDec) (t : PbTok) : (c.accept p t).Ends R := by
  cases t with
  | literal n =>
    simp only [PbDec.accept, PbDec.literal]
    split
    · trivial
    · exact PbDec.chunk_ends c _ _
  | illegal80 => trivial
  | rep h =>
    simp only [PbDec.accept, PbDec.rep]
    split
    · exact PbDec.chunk_ends c _ _
    · trivial

theorem PbDec.advance_ends (c : PbDec) :
    (c.advance p).Ends fun r => c.out.length ≤ p.outCapacity → r.Fits p.outCapacity := by
  unfold PbDec.advance PbDec.turn
  split
  · split
    · exact PbDec.accept_ends _ _
    · trivial
  · exact id

/-! ## The count/value coder -/

theorem CvEnc.advance_ends (c : CvEnc) :
    (c.advance p).Ends fun r => c.out.length ≤ p.outCapacity → r.Fits p.outCapacity := by
  unfold CvEnc.advance
  split
  · exact Progress.ends_ofExcept fun _ _ => trivial
  · split
    · trivial
    · exact id

theorem CvDec.packet_ends {R : Result → Prop} (c : CvDec) (value : List Byte) (k : Byte) : (c.packet value k).Ends R := by
  unfold CvDec.packet
  split
  · trivial
  · trivial

theorem CvDec.advance_ends (c : CvDec) : (c.advance p).Ends (Result.Fits p.outCapacity) := by
  unfold CvDec.advance CvDec.turn
  split
  · split
    · exact CvDec.packet_ends _ _ _
    · trivial
  · trivial

/-! ## The Ascii85 decoder -/

theorem A85Dec.emitBytes_ends {R : Result → Prop} (c : A85Dec) (bytes : List Byte) : (c.emitBytes p bytes).Ends R :=
  Progress.ends_ofExcept fun _ _ => trivial

theorem A85Dec.accept_ends (c : A85Dec) (t : A85Tok) :
    (c.accept p t).Ends fun r => c.out.length ≤ p.outCapacity → r.Fits p.outCapacity := by
  cases t with
  | digit d =>
    simp only [A85Dec.accept, A85Dec.digit]
    split
    · split
      · trivial
      · exact A85Dec.emitBytes_ends _ _
    · trivial
  | zero =>
    simp only [A85Dec.accept, A85Dec.zero]
    split
    · trivial
    · exact A85Dec.emitBytes_ends _ _
  | stop =>
    refine Progress.ends_ofExcept fun out hout hcap => ?_
    obtain ⟨bytes, -, hemit⟩ := bind_ok hout
    exact (emitAll_ok hemit).2 hcap
  | linebreak => trivial
  | whitespace b => trivial
  | illegal b => trivial

theorem A85Dec.advance_ends (c : A85Dec) :
    (c.advance p).Ends fun r => c.out.length ≤ p.outCapacity → r.Fits p.outCapacity := by
  unfold A85Dec.advance A85Dec.turn
  split
  · exact A85Dec.accept_ends { c with i := c.i + 1 } _
  · trivial

/-! ## The LZW encoder -/

/-- R103, R62: what a flush returns is within `OUT_CAPACITY`. -/
theorem BitWriter.flush_length {b : BitWriter} {cap : Nat} {out : List Byte} (hcap : b.out.length ≤ cap)
    (h : b.flush cap = .ok out) : out.length ≤ cap := by
  unfold BitWriter.flush at h
  split at h
  · obtain ⟨hlt, rfl⟩ := emit_ok_iff.1 h
    simpa using hlt
  · cases h
    exact hcap

theorem LzwEnc.endOut_length {c : LzwEnc} {out : List Byte} (hc : c.InRange p) (h : c.endOut p = .ok out) :
    out.length ≤ p.outCapacity := by
  have hlast {c₁ : LzwEnc} (hc₁ : c₁.InRange p)
      (h : (c₁.emitCode p endCode >>= fun c => c.bw.flush p.outCapacity) = .ok out) : out.length ≤ p.outCapacity := by
    obtain ⟨c₂, he, hflush⟩ := bind_ok h
    obtain ⟨-, hout, -⟩ := BitWriter.wf_iff.1 (hc₁.emitCode he).writer
    exact BitWriter.flush_length hout hflush
  unfold LzwEnc.endOut at h
  dsimp only at h
  split at h
  · exact hlast hc h
  · obtain ⟨c₀, he, h⟩ := bind_ok h
    exact hlast (hc.emitCode he).widened h

theorem LzwEnc.advance_ends (c : LzwEnc) : (c.advance p).Ends fun r => c.wf p = true → r.Fits p.outCapacity := by
  unfold LzwEnc.advance
  split
  · exact Progress.ends_ofExcept fun _ _ => trivial
  · exact Progress.ends_ofExcept fun _ hout hc => LzwEnc.endOut_length (LzwEnc.wf_iff.1 hc) hout

/-! ## The LZW decoder -/

theorem LzwDec.emitString_ends {R : Result → Prop} (c : LzwDec) (k : Nat) (s : List Byte) :
    (c.emitString p k s).Ends R := by
  refine Progress.ends_ofExcept fun out _ => ?_
  dsimp only
  split
  · trivial
  · trivial

theorem LzwDec.finish_ends (c : LzwDec) :
    c.finish.Ends fun r => c.out.length ≤ p.outCapacity → r.Fits p.outCapacity := by
  unfold LzwDec.finish
  split
  · trivial
  · exact id

/-- R33, R42: a code that is a string resolves. -/
theorem LzwDec.string_isSome {c : LzwDec} (hc : c.InRange p) {k : Nat} (hk : lzwIsString c.next k = true) :
    ∃ s, c.string k = some s := by
  obtain ⟨q, h, -⟩ := lzwString_isSome hc.entries (Nat.le_refl _) (hc.next ▸ hk) (Nat.le_refl _)
  exact ⟨q, h⟩

/-- R87, R191, R193: in range, every code that is read resolves. -/
theorem LzwDec.accept_ends {c : LzwDec} (hc : c.InRange p) (k : Nat) :
    (c.accept p (decodeLzw c.prev.isSome c.next k)).Ends (Result.Fits p.outCapacity) := by
  obtain h | h | ⟨b, h⟩ | ⟨h, hge, hlt⟩ | ⟨h, hknown, -⟩ | h := decodeLzw_cases c.prev.isSome c.next k <;> rw [h]
  · trivial
  · exact (LzwDec.finish_ends _).imp fun _ hfits => hfits hc.capacity
  · exact LzwDec.emitString_ends _ _ _
  · obtain ⟨s, hs⟩ := LzwDec.string_isSome hc (lzwIsString_iff.2 ⟨hlt, .inr hge⟩)
    simp only [LzwDec.accept, LzwDec.known, hs]
    exact LzwDec.emitString_ends _ _ _
  · obtain ⟨j, hj⟩ := Option.isSome_iff_exists.1 hknown
    obtain ⟨s, hs⟩ := LzwDec.string_isSome hc (hc.prevSome j hj)
    have hprev : c.prev.bind c.string = some s := by rw [hj]; exact hs
    simp only [LzwDec.accept, LzwDec.special, hprev]
    exact LzwDec.emitString_ends _ _ _
  · trivial

theorem LzwDec.advance_ends {c : LzwDec} (hc : c.wf p = true) : (c.advance p).Ends (Result.Fits p.outCapacity) := by
  unfold LzwDec.advance LzwDec.turn
  split
  · rename_i k br hr
    exact LzwDec.accept_ends (c := { c with br := br }) ((LzwDec.wf_iff.1 hc).set_br hr) k
  · trivial

/-- R197: of the codes only `END_CODE` returns. -/
theorem LzwDec.accept_returns {c : LzwDec} (hc : c.wf p = true) (t : LzwTok) :
    (c.accept p t).Returns (Result.Fits p.outCapacity) := by
  cases t with
  | literal b => exact (LzwDec.emitString_ends c _ _).returns
  | clear => exact nofun
  | stop => exact c.finish_ends.returns_of (LzwDec.wf_iff.1 hc).capacity
  | string k =>
    simp only [LzwDec.accept, LzwDec.known]
    split
    · exact (LzwDec.emitString_ends c _ _).returns
    · exact nofun
  | next =>
    simp only [LzwDec.accept, LzwDec.special]
    split
    · exact (LzwDec.emitString_ends c _ _).returns
    · exact nofun
  | illegal k => exact nofun

/-! ## The Huffman decoder -/

theorem HufRun.endLine_ends {cap : Nat} (r : HufRun) (line : LineEnd) : (r.endLine line).Ends (Result.Fits cap) := by
  unfold HufRun.endLine
  split
  · trivial
  · trivial
  · trivial
  · trivial
  · split
    · trivial
    · trivial
  · trivial

theorem HufRun.accept_ends {cap : Nat} (r : HufRun) (first : Bool) (e : Entry) :
    (r.accept first e).Ends (Result.Fits cap) := by
  unfold HufRun.accept
  split
  · split
    · exact HufRun.endLine_ends _ _
    · trivial
  · split
    · split
      · trivial
      split
      · exact HufRun.endLine_ends _ _
      · exact HufRun.endLine_ends _ _
    · exact Progress.ends_ofExcept fun _ _ => trivial
    · exact Progress.ends_ofExcept fun _ _ => trivial
    · exact Progress.ends_ofExcept fun _ _ => trivial
    · exact Progress.ends_ofExcept fun _ _ => trivial
    · exact Progress.ends_ofExcept fun _ _ => trivial

theorem HufRun.beginLine_ends {cap : Nat} (r : HufRun) : r.beginLine.Ends (Result.Fits cap) := by
  unfold HufRun.beginLine
  split
  · exact HufRun.endLine_ends _ _
  · trivial

theorem HufRun.advance_ends {cap : Nat} (r : HufRun) : r.advance.Ends (Result.Fits cap) := by
  unfold HufRun.advance HufRun.turn
  split
  · split
    · exact HufRun.beginLine_ends r
    split
    · exact HufRun.beginLine_ends r
    · trivial
  · split
    · exact HufRun.endLine_ends _ _
    split
    · exact HufRun.accept_ends _ _ _
    · trivial

end

/-! ## Contexts in range -/

theorem ByteCoder.fresh_wf (p : Params) (input : List Byte) : (ByteCoder.fresh input).wf p = true :=
  ByteCoder.wf_iff.2 ⟨Nat.zero_le _, Nat.zero_le _⟩

theorem BitWriter.out_length {p : Params} {b : BitWriter} (hb : b.wf p = true) : b.out.length ≤ p.outCapacity := by
  obtain ⟨-, hout, -⟩ := BitWriter.wf_iff.1 hb
  exact hout

theorem ByteCoder.out_length {p : Params} {c : ByteCoder} (hc : c.wf p = true) : c.out.length ≤ p.outCapacity :=
  (ByteCoder.wf_iff.1 hc).2

theorem PbDec.out_length {p : Params} {c : PbDec} (hc : c.wf p = true) : c.out.length ≤ p.outCapacity := by
  obtain ⟨-, -, -, hout⟩ := PbDec.wf_iff.1 hc
  exact hout

theorem CvEnc.out_length {p : Params} {c : CvEnc} (hc : c.wf p = true) : c.out.length ≤ p.outCapacity := by
  obtain ⟨-, -, -, hout⟩ := CvEnc.wf_iff.1 hc
  exact hout

theorem A85Dec.out_length {p : Params} {c : A85Dec} (hc : c.wf p = true) : c.out.length ≤ p.outCapacity := by
  obtain ⟨-, -, -, hout⟩ := A85Dec.wf_iff.1 hc
  exact hout

theorem LzwEnc.start_wf {p : Params} {input : List Byte} {c : LzwEnc} (h : LzwEnc.start p input = .ok c) :
    c.wf p = true := by
  refine LzwEnc.wf_iff.2 (LzwEnc.InRange.emitCode ?_ h)
  exact {
    order := rfl, writer := BitWriter.fresh_wf p .lsb, next := rfl, nextLe := (by decide : firstFree ≤ lzwDictCap)
    widthGe := Nat.le_refl _, widthLe := (by decide : lzwInitialBits ≤ lzwMaxBits), cursor := Nat.zero_le _
    dict := nofun, pre := nofun }

theorem LzwDec.fresh_wf (p : Params) (input : List Byte) (expected : Nat) : (LzwDec.fresh input expected).wf p = true :=
  LzwDec.wf_iff.2 {
    order := rfl, reader := BitReader.wf_iff.2 (Nat.zero_le _), next := rfl, nextLe := (by decide : firstFree ≤ lzwDictCap)
    widthGe := Nat.le_refl _, widthLe := (by decide : lzwInitialBits ≤ lzwMaxBits), entries := by simp [LzwDec.fresh]
    prevNone := fun _ => rfl, prevSome := nofun, produced := rfl, total := Nat.zero_le _, capacity := Nat.zero_le _ }

end Sys2Proof.Machine
end

section
/-! O57. A step inside an operation settles one turn of its loop, so steps to the end settle the loop
(`stepsToEnd_runLoop`); an operation settles the same loop from the context it opens. -/

namespace Sys2Proof.Machine

/-! ## Steps to the end -/

/-- How the turns of an operation act on the state: `inside c` is the state that holds the context `c` of the operation, and
`answer` the answer that a turn's progress comes to. -/
structure Settles {α : Type} (inside : α → State) (answer : Progress α → Answer) : Prop where
  active : ∀ c, ∃ a, (inside c).active = some a
  more : ∀ c, answer (.more c) = .next (inside c)
  done : ∀ c st r, ∃ t, answer (.done c st r) = .next t ∧ t.active = none
  raised : ∀ e, ∃ t, answer (.raised e) = .next t ∧ t.active = none
  stuck : ∀ f, answer (.stuck f) = .fault f

section

variable {α : Type} {inside : α → State} {answer : Progress α → Answer}

/-- R34, R55: steps that are turns of a loop answer what the loop answers. -/
theorem stepsToEnd_runLoop {turn : α → Progress α} {I : α → Prop} (hs : Settles inside answer)
    (hstep : ∀ c, I c → step (inside c) = answer (turn c)) (hkeep : ∀ c c', I c → turn c = .more c' → I c')
    (fuel : Nat) {c : α} (hc : I c) : stepsToEnd fuel (inside c) = answer (runLoop turn fuel c) := by
  induction fuel generalizing c with
  | zero =>
    obtain ⟨a, ha⟩ := hs.active c
    simp only [stepsToEnd, ha, runLoop, hs.stuck]
  | succ n ih =>
    obtain ⟨a, ha⟩ := hs.active c
    have hst := hstep c hc
    cases h : turn c with
    | more c' =>
      rw [h] at hst
      rw [runLoop_more h, stepsToEnd_succ ha (hst.trans (hs.more c'))]
      exact ih (hkeep c c' hc h)
    | done c' st r =>
      obtain ⟨t, ht, hend⟩ := hs.done c' st r
      rw [h] at hst
      rw [runLoop_done h, stepsToEnd_succ ha (hst.trans ht), stepsToEnd_none hend, ht]
    | raised e =>
      obtain ⟨t, ht, hend⟩ := hs.raised e
      rw [h] at hst
      rw [runLoop_raised h, stepsToEnd_succ ha (hst.trans ht), stepsToEnd_none hend, ht]
    | stuck f =>
      rw [h, hs.stuck] at hst
      simp only [stepsToEnd, ha, hst, runLoop, h, hs.stuck]

/-- A loop that ends, and not by a fault, answers a next state. -/
theorem Settles.next (hs : Settles inside answer) {p : Progress α} (hmore : ∀ c, p ≠ .more c) (hstuck : ∀ f, p ≠ .stuck f) :
    ∃ t, answer p = .next t := by
  cases p with
  | more c => exact absurd rfl (hmore c)
  | done c st r => exact (hs.done c st r).imp fun _ ht => ht.1
  | raised e => exact (hs.raised e).imp fun _ ht => ht.1
  | stuck f => exact absurd rfl (hstuck f)

end

/-- The state inside an operation. -/
def State.withActive (s : State) (a : Active) : State := { s with active := some a }

theorem settles_settle {α : Type} (u : Session) (mk : α → Active) (s : State) :
    Settles (fun c => s.withActive (mk c)) (settle u mk s) where
  active c := ⟨mk c, rfl⟩
  more _ := rfl
  done _ st r := ⟨s.finish u st r, rfl, rfl⟩
  raised e := ⟨s.raise u e, rfl, rfl⟩
  stuck _ := rfl

/-- The state inside an operation of the Huffman decoder. -/
def State.withHufRun (s : State) (r : HufRun) : State :=
  { s with hufDec := some r.dec, active := some (.hufDec r.mode r.phase) }

theorem settles_settleHuf (s : State) : Settles s.withHufRun (settleHuf s) where
  active r := ⟨.hufDec r.mode r.phase, rfl⟩
  more _ := rfl
  done r st res := by
    simp only [settleHuf]
    split
    · exact ⟨_, rfl, rfl⟩
    · exact ⟨_, rfl, rfl⟩
  raised e := ⟨s.raise .hufDec e, rfl, rfl⟩
  stuck _ := rfl

/-! ## Operations and their turns -/

/-- Executing the instruction leaves the state that steps leave from inside its operation with the context `a`. -/
def IsItsTurns (i : Instr) (s : State) (a : Active) : Prop :=
  ∃ n t, exec i s = .next t ∧ stepsToEnd n (s.entered a) = .next t

/-- An operation of a single-operation unit that settles a loop, the steps inside it its turns. -/
theorem isItsTurns_settle {α : Type} {i : Instr} {s : State} {u : Session} {mk : α → Active} {turn : α → Progress α}
    {I : α → Prop} {fuel : Nat} {c : α} (hu : (mk c).session = u) (hne : u ≠ .hufDec)
    (hexec : exec i s = settle u mk (s.popDraw.openSession u) (runLoop turn fuel c))
    (hstep : ∀ s' c, s'.params = s.params → s'.active = some (mk c) → I c → step s' = settle u mk s' (turn c))
    (hkeep : ∀ c c', I c → turn c = .more c' → I c') (hc : I c) (hstuck : ∀ f, runLoop turn fuel c ≠ .stuck f) :
    IsItsTurns i s (mk c) := by
  have hs := settles_settle u mk (s.popDraw.openSession u)
  obtain ⟨t, ht⟩ := hs.next (runLoop_ne_more fuel c) hstuck
  have hentered : s.entered (mk c) = (s.popDraw.openSession u).withActive (mk c) := by
    simp only [State.entered, hu, hne, if_false]
    rfl
  refine ⟨fuel, t, hexec.trans ht, ?_⟩
  have hturn (c : α) (hc : I c) :
      step ((s.popDraw.openSession u).withActive (mk c)) = settle u mk (s.popDraw.openSession u) (turn c) := by
    rw [hstep ((s.popDraw.openSession u).withActive (mk c)) c rfl rfl hc]
    exact settle_set_active u mk _ _ _
  rw [hentered, stepsToEnd_runLoop hs hturn hkeep fuel hc, ht]

/-- The error of a turn of the Huffman decoder closes the session. -/
theorem HufRun.advance_raised {r : HufRun} {x : ErrorKind} (h : r.advance = .raised x) : x ≠ .invalidOperand := by
  have hbegin (h : r.beginLine = .raised x) : x ≠ .invalidOperand := by
    unfold HufRun.beginLine at h
    split at h
    · rw [HufRun.endLine_raised h]; decide
    · cases h
  unfold HufRun.advance HufRun.turn at h
  split at h
  · split at h
    · exact hbegin h
    split at h
    · exact hbegin h
    · cases h
  · split at h
    · rw [HufRun.endLine_raised h]; decide
    split at h
    · exact HufRun.accept_raised h
    · rename_i y hy
      cases h
      rw [HufDec.readCode_error hy]; decide

theorem step_withHufRun (s : State) (r : HufRun) : step (s.withHufRun r) = settleHuf s r.advance := by
  rw [step_hufDec_turn (s := s.withHufRun r) rfl rfl]
  have hset := settleHuf_set_hufDec { s with active := some (.hufDec r.mode r.phase) } r.dec (p := r.advance)
    fun _ => HufRun.advance_raised
  refine hset.trans ?_
  cases r.advance with
  | more r' => rfl
  | done r' st res => cases hm : r'.mode <;> simp [settleHuf, hm, State.finish, State.close]
  | raised e => cases e <;> rfl
  | stuck f => rfl

/-- Both operations of the Huffman decoder settle the loop from the open session. -/
theorem isItsTurns_settleHuf {i : Instr} {s : State} {d : HufDec} {mode : HufMode} (hd : s.hufDec = some d)
    (hexec : exec i s = settleHuf s.popDraw (d.run mode)) : IsItsTurns i s (.hufDec mode .head) := by
  have hs := settles_settleHuf s.popDraw
  obtain ⟨t, ht⟩ := hs.next (p := d.run mode) (runLoop_ne_more _ _)
    (run_ne_stuck (HufDec.run_ends d mode) (HufRun.advance_ends (cap := 0)))
  have hentered : s.entered (.hufDec mode .head) = s.popDraw.withHufRun ⟨d, mode, .head⟩ := by
    simp only [State.withHufRun, ← hd]
    rfl
  refine ⟨d.fuel, t, hexec.trans ht, ?_⟩
  rw [hentered, stepsToEnd_runLoop (I := fun _ => True) hs (fun r _ => step_withHufRun _ r) (fun _ _ _ _ => trivial) d.fuel
    trivial]
  exact ht

/-! ## The operations -/

/-- R42: the decoder's loop never meets an entry that is not written. -/
theorem LzwDec.run_ne_stuck (p : Params) (input : List Byte) (expected : Nat) (f : Fault) :
    LzwDec.run p input expected ≠ .stuck f := by
  have hmore (c c' : LzwDec) (hc : c.wf p = true) (h : c.advance p = .more c') :
      c'.wf p = true ∧ c'.br.remaining < c.br.remaining := by
    have hwidth := (LzwDec.wf_iff.1 hc).widthGe
    obtain ⟨hle, hbr⟩ := LzwDec.advance_more h
    refine ⟨(LzwDec.advance_all hc).of_more h, ?_⟩
    rw [hbr]
    simp only [BitReader.remaining, lzwInitialBits] at hle hwidth ⊢
    omega
  obtain ⟨d, hd, hrun, -⟩ := runLoop_ends (fun c => c.wf p = true) (fun c => c.br.remaining) hmore (8 * input.length + 1)
    (LzwDec.fresh input expected) (LzwDec.fresh_wf p input expected)
    (by simp [LzwDec.fresh, BitReader.fresh, BitReader.remaining])
  have hturn := (LzwDec.advance_ends hd).ne_stuck f
  rw [hrun] at hturn
  exact hturn

section

variable {s : State} (hs : s.ready = true)

include hs

theorem execLzwEnc_isItsTurns {input : List Byte} {c : LzwEnc} (hc : LzwEnc.start s.params input = .ok c) :
    IsItsTurns (.lzwEnc input) s (.lzwEnc c) := by
  have hrun : LzwEnc.run s.params input = runLoop (LzwEnc.advance s.params) (input.length + 1) c := by
    rw [LzwEnc.run, hc]
    rfl
  refine isItsTurns_settle (I := fun _ => True) (turn := LzwEnc.advance s.params) (fuel := input.length + 1) rfl nofun
    (hrun ▸ (operation_ready hs _ _ : execLzwEnc input s = _)) (fun _ _ hp ha _ => hp ▸ step_lzwEnc ha)
    (fun _ _ _ _ => trivial) trivial ?_
  obtain ⟨e, he⟩ | hends := LzwEnc.run_ends s.params input
  · rw [← hrun, he]; exact nofun
  · exact hrun ▸ run_ne_stuck hends LzwEnc.advance_ends

theorem execSbPack_isItsTurns (input : List Byte) : IsItsTurns (.sbPack input) s (.sbPack (ByteCoder.fresh input)) :=
  isItsTurns_settle (I := fun _ => True) (turn := sbPackTurn s.params) rfl nofun
    (operation_ready hs _ _ : execSbPack input s = _) (fun _ _ hp ha _ => hp ▸ step_sbPack ha) (fun _ _ _ _ => trivial)
    trivial (run_ne_stuck (byteCoder_ends (fun _ _ => sbPackTurn_more) input) sbPackTurn_ends)

theorem execSbUnpack_isItsTurns (input : List Byte) :
    IsItsTurns (.sbUnpack input) s (.sbUnpack (ByteCoder.fresh input)) :=
  isItsTurns_settle (I := fun _ => True) (turn := sbUnpackTurn s.params) rfl nofun
    (operation_ready hs _ _ : execSbUnpack input s = _) (fun _ _ hp ha _ => hp ▸ step_sbUnpack_turn ha)
    (fun _ _ _ _ => trivial) trivial
    (run_ne_stuck (byteCoder_ends (fun _ _ => sbUnpackTurn_more) input) sbUnpackTurn_ends)

theorem execPbEnc_isItsTurns (input : List Byte) : IsItsTurns (.pbEnc input) s (.pbEnc (ByteCoder.fresh input)) :=
  isItsTurns_settle (I := fun _ => True) (turn := pbEncTurn s.params) rfl nofun
    (operation_ready hs _ _ : execPbEnc input s = _) (fun _ _ hp ha _ => hp ▸ step_pbEnc ha) (fun _ _ _ _ => trivial)
    trivial (run_ne_stuck (byteCoder_ends (fun _ _ => pbEncTurn_more) input) pbEncTurn_ends)

theorem execPbDec_isItsTurns (input : List Byte) (total : Nat) :
    IsItsTurns (.pbDec input total) s (.pbDec ⟨input, 0, total, 0, []⟩) :=
  isItsTurns_settle (I := fun _ => True) (turn := PbDec.advance s.params) rfl nofun
    (operation_ready hs _ _ : execPbDec input total s = _) (fun _ _ hp ha _ => hp ▸ step_pbDec_turn ha)
    (fun _ _ _ _ => trivial) trivial (run_ne_stuck (PbDec.run_ends s.params input total) PbDec.advance_ends)

theorem execCvDec_isItsTurns (input : List Byte) (total : Nat) :
    IsItsTurns (.cvDec input total) s (.cvDec ⟨input, 0, total, 0, []⟩) :=
  isItsTurns_settle (I := fun _ => True) (turn := CvDec.advance s.params) rfl nofun
    (operation_ready hs _ _ : execCvDec input total s = _) (fun _ _ hp ha _ => hp ▸ step_cvDec_turn ha)
    (fun _ _ _ _ => trivial) trivial (run_ne_stuck (CvDec.run_ends s.params input total) CvDec.advance_ends)

theorem execA85Dec_isItsTurns (input : List Byte) : IsItsTurns (.a85Dec input) s (.a85Dec ⟨input, 0, [], []⟩) :=
  isItsTurns_settle (I := fun _ => True) (turn := A85Dec.advance s.params) rfl nofun
    (operation_ready hs _ _ : execA85Dec input s = _) (fun _ _ hp ha _ => hp ▸ step_a85Dec_turn ha)
    (fun _ _ _ _ => trivial) trivial (run_ne_stuck (A85Dec.run_ends s.params input) A85Dec.advance_ends)

/-- R87: the codes of the loop are read LSB-first from a context in range, where each of them resolves. -/
theorem execLzwDec_isItsTurns (input : List Byte) (expected : Nat) :
    IsItsTurns (.lzwDec input expected) s (.lzwDec (LzwDec.fresh input expected)) :=
  isItsTurns_settle (I := fun c => c.wf s.params = true) (turn := LzwDec.advance s.params) rfl nofun
    (operation_ready hs _ _ : execLzwDec input expected s = _)
    (fun _ _ hp ha hc => hp ▸ step_lzwDec_turn ha (LzwDec.wf_iff.1 hc).order)
    (fun _ _ hc h => (LzwDec.advance_all hc).of_more h) (LzwDec.fresh_wf _ input expected)
    (LzwDec.run_ne_stuck s.params input expected)

/-- R231: the runs have positive counts, and so the loop ends. -/
theorem execCvEnc_isItsTurns {runs : List CvRun} {total : Nat} (hok : runs.all (CvRun.ok s.params) = true)
    (htotal : runTotal runs = total) : IsItsTurns (.cvEnc runs total) s (.cvEnc (CvEnc.fresh runs)) := by
  have hpos : (runs.all fun r => decide (0 < r.count)) = true := by
    refine List.all_eq_true.2 fun r hr => decide_eq_true ?_
    exact (CvRun.ok_iff.1 (List.all_eq_true.1 hok r hr)).2.1
  refine isItsTurns_settle (I := fun _ => True) (turn := CvEnc.advance s.params) rfl nofun
    ((operation_ready hs _ _ : execCvEnc runs total s = _).trans ?_) (fun _ _ hp ha _ => hp ▸ step_cvEnc ha)
    (fun _ _ _ _ => trivial) trivial (run_ne_stuck (CvEnc.run_ends s.params runs hpos) CvEnc.advance_ends)
  rw [State.popDraw_params, if_neg (by simp [hok]), if_neg (not_not_intro htotal)]
  rfl

/-- R142, R150: the operations of the Huffman decoder run on its open session. -/
theorem execHufDecLine_isItsTurns {d : HufDec} (hd : s.hufDec = some d) :
    IsItsTurns .hufDecLine s (.hufDec .line .head) := by
  refine isItsTurns_settleHuf hd ((operation_ready hs _ _ : execHufDecLine s = _).trans ?_)
  simp only [State.popDraw_hufDec, hd]

theorem execHufDecPage_isItsTurns {d : HufDec} (hd : s.hufDec = some d) (rows : Nat) :
    IsItsTurns (.hufDecPage rows) s (.hufDec (.page rows) .head) := by
  refine isItsTurns_settleHuf hd ((operation_ready hs _ _ : execHufDecPage rows s = _).trans ?_)
  simp only [State.popDraw_hufDec, hd]

end

/-- Settles O57: each of the eleven operations settles the loop whose turns are the steps inside it (`isItsTurns_settle`,
`isItsTurns_settleHuf`). -/
theorem anOperationIsItsTurns : Obligations.AnOperationIsItsTurns := by
  intro s i a hs ha
  cases i with
  | hufDecLine =>
    obtain ⟨d, hd, rfl⟩ := Option.map_eq_some_iff.1 ha
    exact execHufDecLine_isItsTurns hs hd
  | hufDecPage rows =>
    obtain ⟨d, hd, rfl⟩ := Option.map_eq_some_iff.1 ha
    exact execHufDecPage_isItsTurns hs hd rows
  | lzwEnc input =>
    cases hc : LzwEnc.start s.params input with
    | ok c => rw [openedContext, hc] at ha; cases ha; exact execLzwEnc_isItsTurns hs hc
    | error e => rw [openedContext, hc] at ha; cases ha
  | lzwDec input expected => cases ha; exact execLzwDec_isItsTurns hs input expected
  | sbPack input => cases ha; exact execSbPack_isItsTurns hs input
  | sbUnpack input => cases ha; exact execSbUnpack_isItsTurns hs input
  | pbEnc input => cases ha; exact execPbEnc_isItsTurns hs input
  | pbDec input total => cases ha; exact execPbDec_isItsTurns hs input total
  | cvEnc runs total =>
    simp only [openedContext] at ha
    split at ha
    · rename_i hok
      cases ha
      obtain ⟨hruns, htotal⟩ := Bool.and_eq_true_iff.1 hok
      exact execCvEnc_isItsTurns hs hruns (of_decide_eq_true htotal)
    · cases ha
  | cvDec input total => cases ha; exact execCvDec_isItsTurns hs input total
  | a85Dec input => cases ha; exact execA85Dec_isItsTurns hs input
  | _ => cases ha

end Sys2Proof.Machine
end

section
/-! O56. An instruction delivers a byte stream within `OUT_CAPACITY`, or leaves the result as it was: the operations that
write bytes in one turn (`BW_FLUSH`, `HUF_ENC_END`, `A85_ENC_END`), and the units whose loops end within it. -/

namespace Sys2Proof.Machine

/-- R62: the result of a next state is within the capacity, or the one that was there. -/
def Delivers (s : State) (a : Answer) : Prop := ∀ t, a = .next t → t.result.Fits s.params.outCapacity ∨ t.result = s.result

namespace Delivers

variable {s : State} {u : Session}

theorem refused (r : Refusal) : Delivers s (.refused r) := fun _ h => by cases h

theorem fault (f : Fault) : Delivers s (.fault f) := fun _ h => by cases h

theorem next {t : State} (h : t.result.Fits s.params.outCapacity) : Delivers s (.next t) := by
  rintro _ ⟨⟩
  exact .inl h

theorem raise (s' : State) (e : ErrorKind) : Delivers s (.next (s'.raise u e)) := next trivial

/-! ### Operations with one turn -/

theorem complete_pure {s' : State} {st : Status} {r : Result} (h : r.Fits s.params.outCapacity) :
    Delivers s (s.complete u (pure (s'.finish u st r))) := next h

theorem complete_error (e : ErrorKind) : Delivers s (s.complete u (.error e)) := raise s e

theorem complete_bind {α : Type} {x : Except ErrorKind α} {f : α → Except ErrorKind State}
    (hf : ∀ a, x = .ok a → Delivers s (s.complete u (f a))) : Delivers s (s.complete u (x >>= f)) := by
  cases x with
  | ok a => exact hf a rfl
  | error e => exact complete_error e

/-! ### Turns -/

theorem settle {α : Type} (mk : α → Active) {p : Progress α} (h : p.Returns (Result.Fits s.params.outCapacity)) :
    Delivers s (Machine.settle u mk s p) := by
  cases p with
  | more c => rintro _ ⟨⟩; exact .inr rfl
  | done c st r => exact next (h c st r rfl)
  | raised e => exact raise s e
  | stuck f => exact fault f

theorem settleHuf {p : Progress HufRun} (h : p.Returns (Result.Fits s.params.outCapacity)) :
    Delivers s (Machine.settleHuf s p) := by
  cases p with
  | more r => rintro _ ⟨⟩; exact .inr rfl
  | done r st res =>
    simp only [Machine.settleHuf]
    split
    · exact next (h r st res rfl)
    · exact next (h r st res rfl)
  | raised e => exact raise s e
  | stuck f => exact fault f

/-! ### The opening of an operation -/

theorem operation {body : State → Answer} (h : Delivers s.popDraw (body s.popDraw)) :
    Delivers s (Machine.operation u s body) := by
  obtain ⟨a, -, hr⟩ | ⟨-, -, hr⟩ | ⟨-, hr⟩ := operation_cases u s body <;> rw [hr]
  · exact refused _
  · exact raise _ _
  · exact h

/-- The whole of a single-operation unit's loop. -/
theorem operation_loop {α : Type} {mk : α → Active} {turn : α → Progress α} {I : α → Prop} {fuel : Nat} {c : α}
    {body : State → Answer} (hbody : body s.popDraw = Machine.settle u mk (s.popDraw.openSession u) (runLoop turn fuel c))
    (hkeep : ∀ c, I c → (turn c).All I) (hturn : ∀ c, I c → (turn c).Returns (Result.Fits s.params.outCapacity)) (hc : I c) :
    Delivers s (Machine.operation u s body) :=
  operation (hbody ▸ settle (s := s.popDraw.openSession u) mk (runLoop_returns hkeep hturn fuel hc))

end Delivers

/-! ## The operations that write bytes in one turn -/

theorem HufEnc.pad_bw_wf {p : Params} {n : Nat} {h h' : HufEnc} (hh : h.bw.wf p = true)
    (hp : HufEnc.pad p.outCapacity n h = .ok h') : h'.bw.wf p = true := by
  induction n generalizing h with
  | zero => cases hp; exact hh
  | succ n ih =>
    simp only [HufEnc.pad, HufEnc.put] at hp
    cases hw : h.bw.writeBits p.outCapacity eolEntry.code.toNat eolEntry.bitLength with
    | ok bw => rw [hw] at hp; exact ih (BitWriter.writeBits_wf hh hw).1 hp
    | error x => rw [hw] at hp; cases hp

theorem A85Enc.endOut_length {p : Params} {c : A85Enc} {out : List Byte} (hc : c.wf p = true)
    (h : c.endOut p.outCapacity = .ok out) : out.length ≤ p.outCapacity := by
  obtain ⟨-, hcol, hcap, -⟩ := A85Enc.wf_iff.1 hc
  unfold A85Enc.endOut at h
  dsimp only at h
  split at h
  · obtain ⟨c₁, hput, h⟩ := bind_ok h
    exact (emitAll_ok h).2 (A85Enc.putChars_ok hput hcol hcap).2
  · exact (emitAll_ok h).2 hcap

section

variable {s : State} (h : SessionsInRange s)

include h

theorem execBwFlush_delivers : Delivers s (execBwFlush s) := by
  refine .operation (.complete_bind fun b hb => .complete_bind fun out hout => .complete_pure ?_)
  have hwf := h.popDraw.bw
  rw [requireSession_ok hb] at hwf
  exact BitWriter.flush_length (BitWriter.out_length hwf) hout

theorem execHufEncEnd_delivers : Delivers s (execHufEncEnd s) := by
  refine .operation (.complete_bind fun e he => .complete_bind fun e' he' => .complete_bind fun out hout =>
    .complete_pure ?_)
  have hwf := h.popDraw.hufEnc
  rw [requireSession_ok he] at hwf
  obtain ⟨-, -, hbw, -⟩ := HufEnc.wf_iff.1 hwf
  exact BitWriter.flush_length (BitWriter.out_length (HufEnc.pad_bw_wf hbw he')) hout

theorem execA85EncEnd_delivers : Delivers s (execA85EncEnd s) :=
  .operation (.complete_bind fun _ hout => .complete_pure (A85Enc.endOut_length (A85Enc.continued_wf h.popDraw) hout))

end

/-! ## The other operations -/

section

variable (s : State)

theorem execBwWrite_delivers (value : Word16) (width : Nat) : Delivers s (execBwWrite value width s) :=
  .operation (.complete_bind fun _ _ => .complete_bind fun _ _ => .complete_bind fun _ _ => .complete_pure trivial)

theorem execBrRead_delivers (width : Nat) : Delivers s (execBrRead width s) := by
  refine .operation (.complete_bind fun _ _ => .complete_bind fun r _ => ?_)
  cases r.readBits width with
  | some x => exact .complete_pure trivial
  | none => exact .complete_pure trivial

theorem execHufEncLine_delivers (line : Line) : Delivers s (execHufEncLine line s) := by
  refine .operation (.complete_bind fun _ _ => .complete_bind fun e _ => ?_)
  split
  · exact .complete_error _
  · exact .complete_bind fun _ _ => .complete_pure trivial

theorem HufDec.run_returns {cap : Nat} (d : HufDec) (mode : HufMode) : (d.run mode).Returns (Result.Fits cap) :=
  runLoop_returns (I := fun _ => True) (fun r _ => by cases r.advance <;> trivial)
    (fun r _ => r.advance_ends.returns) _ trivial

theorem execHufDecLine_delivers : Delivers s (execHufDecLine s) := by
  refine .operation ?_
  split
  · exact .raise _ _
  · exact .settleHuf (HufDec.run_returns _ _)

theorem execHufDecPage_delivers (rows : Nat) : Delivers s (execHufDecPage rows s) := by
  refine .operation ?_
  split
  · exact .raise _ _
  · exact .settleHuf (HufDec.run_returns _ _)

theorem execLzwEnc_delivers (input : List Byte) : Delivers s (execLzwEnc input s) := by
  refine .operation (.settle (s := s.popDraw.openSession .lzwEnc) _ ?_)
  unfold LzwEnc.run
  cases hc : LzwEnc.start s.popDraw.params input with
  | ok c =>
    exact runLoop_returns (fun _ => LzwEnc.advance_all) (fun c hc => (LzwEnc.advance_ends c).returns_of hc) _
      (LzwEnc.start_wf hc)
  | error e => exact nofun

theorem execLzwDec_delivers (input : List Byte) (expected : Nat) : Delivers s (execLzwDec input expected s) :=
  .operation_loop rfl (fun _ => LzwDec.advance_all) (fun _ hc => (LzwDec.advance_ends hc).returns)
    (LzwDec.fresh_wf _ input expected)

theorem execSbPack_delivers (input : List Byte) : Delivers s (execSbPack input s) :=
  .operation_loop rfl (fun _ => sbPackTurn_all) (fun _ hc => (sbPackTurn_ends _).returns_of (ByteCoder.out_length hc))
    (ByteCoder.fresh_wf _ input)

theorem execSbUnpack_delivers (input : List Byte) : Delivers s (execSbUnpack input s) :=
  .operation_loop rfl (fun _ => sbUnpackTurn_all) (fun _ hc => (sbUnpackTurn_ends _).returns_of (ByteCoder.out_length hc))
    (ByteCoder.fresh_wf _ input)

theorem execPbEnc_delivers (input : List Byte) : Delivers s (execPbEnc input s) :=
  .operation_loop rfl (fun _ => pbEncTurn_all) (fun _ hc => (pbEncTurn_ends _).returns_of (ByteCoder.out_length hc))
    (ByteCoder.fresh_wf _ input)

theorem execPbDec_delivers (input : List Byte) (total : Nat) : Delivers s (execPbDec input total s) :=
  .operation_loop rfl (fun _ => PbDec.advance_all) (fun _ hc => (PbDec.advance_ends _).returns_of (PbDec.out_length hc))
    (PbDec.wf_iff.2 ⟨Nat.zero_le _, rfl, Nat.zero_le _, Nat.zero_le _⟩)

theorem execCvEnc_delivers (runs : List CvRun) (total : Nat) : Delivers s (execCvEnc runs total s) := by
  refine .operation ?_
  split
  · exact .raise _ _
  split
  · exact .raise _ _
  · rename_i hok _
    have hfresh : (CvEnc.fresh runs).wf s.params = true :=
      CvEnc.wf_iff.2 ⟨Nat.zero_le _, List.all_eq_true.1 (Bool.of_not_eq_false hok), nofun, Nat.zero_le _⟩
    exact .settle (s := s.popDraw.openSession .cvEnc) _ (runLoop_returns (fun _ => CvEnc.advance_all)
      (fun c hc => (CvEnc.advance_ends c).returns_of (CvEnc.out_length hc)) _ hfresh)

theorem execCvDec_delivers (input : List Byte) (total : Nat) : Delivers s (execCvDec input total s) :=
  .operation_loop rfl (fun _ => CvDec.advance_all) (fun _ _ => (CvDec.advance_ends _).returns)
    (CvDec.wf_iff.2 ⟨Nat.zero_le _, rfl, Nat.zero_le _, nofun⟩)

theorem execA85Dec_delivers (input : List Byte) : Delivers s (execA85Dec input s) :=
  .operation_loop rfl (fun _ => A85Dec.advance_all) (fun _ hc => (A85Dec.advance_ends _).returns_of (A85Dec.out_length hc))
    (A85Dec.wf_iff.2 ⟨Nat.zero_le _, Nat.zero_lt_succ 4, nofun, Nat.zero_le _⟩)

theorem execReservedOpcode_delivers (b : Byte) : Delivers s (execReservedOpcode b s) := by
  unfold execReservedOpcode
  split
  · exact .refused _
  · exact .raise _ _

end

/-! ## The stream tokens -/

section

variable {s : State} (h : s.wf = true)

theorem acceptCode_delivers (e : Entry) : Delivers s (acceptCode e s) := by
  unfold acceptCode
  split
  · split
    · exact .settleHuf (HufRun.accept_ends _ _ _).returns
    · exact .refused _
  · exact .refused _

theorem execCvPacket_delivers (value : List Byte) (k : Byte) : Delivers s (execCvPacket value k s) := by
  unfold execCvPacket
  split
  · split
    · exact .settle _ (CvDec.packet_ends _ _ _).returns
    · exact .refused _
  · exact .refused _

theorem onPbDec_delivers {f : PbDec → Progress PbDec} (t : PbTok) (hf : ∀ c, f c = c.accept s.params t) :
    Delivers s (onPbDec s f) := by
  unfold onPbDec
  split
  · rename_i c _
    exact .settle _ (hf c ▸ (c.accept_ends t).returns)
  · exact .refused _

include h

theorem State.active_wf {a : Active} (ha : s.active = some a) : a.wf s.params s.hufDec = true := by
  have hwf := (State.wf_iff.1 h).2
  rw [ha] at hwf
  exact hwf

/-- R87: of the LZW codes only `END_CODE` returns. -/
theorem onLzwDec_delivers (ok : LzwDec → Bool) {f : LzwDec → Progress LzwDec} (t : LzwTok)
    (hf : ∀ c, f c = c.accept s.params t) : Delivers s (onLzwDec s ok f) := by
  unfold onLzwDec
  split
  · rename_i c ha
    split
    · exact .settle _ (hf c ▸ LzwDec.accept_returns (State.active_wf h ha) t)
    · exact .refused _
  · exact .refused _

theorem onSbUnpack_delivers {f : ByteCoder → Progress ByteCoder} (t : SbTok) (hf : ∀ c, f c = sbAccept s.params c t) :
    Delivers s (onSbUnpack s f) := by
  unfold onSbUnpack
  split
  · rename_i c ha
    exact .settle _ (hf c ▸ (sbAccept_ends c t).returns_of (ByteCoder.out_length (State.active_wf h ha)))
  · exact .refused _

theorem onA85Dec_delivers {f : A85Dec → Progress A85Dec} (t : A85Tok) (hf : ∀ c, f c = c.accept s.params t) :
    Delivers s (onA85Dec s f) := by
  unfold onA85Dec
  split
  · rename_i c ha
    exact .settle _ (hf c ▸ (c.accept_ends t).returns_of (A85Dec.out_length (State.active_wf h ha)))
  · exact .refused _

/-- R62: every one of the 239 instructions. -/
theorem exec_delivers (i : Instr) : Delivers s (exec i s) := by
  have hs := (State.wf_iff.1 h).1
  cases i with
  | rmSet | rmGet | bwInit | brInit | hufEncBegin | hufDecBegin | a85EncByte =>
    rw [exec]
    exact .operation (.complete_bind fun _ _ => .complete_pure trivial)
  | bwWrite value width => exact execBwWrite_delivers s value width
  | bwFlush => exact execBwFlush_delivers hs
  | brRead width => exact execBrRead_delivers s width
  | hufEncLine line => exact execHufEncLine_delivers s line
  | hufEncEnd => exact execHufEncEnd_delivers hs
  | hufDecLine => exact execHufDecLine_delivers s
  | hufDecPage rows => exact execHufDecPage_delivers s rows
  | lzwEnc input => exact execLzwEnc_delivers s input
  | lzwDec input expected => exact execLzwDec_delivers s input expected
  | sbPack input => exact execSbPack_delivers s input
  | sbUnpack input => exact execSbUnpack_delivers s input
  | pbEnc input => exact execPbEnc_delivers s input
  | pbDec input total => exact execPbDec_delivers s input total
  | cvEnc runs total => exact execCvEnc_delivers s runs total
  | cvDec input total => exact execCvDec_delivers s input total
  | a85EncEnd => exact execA85EncEnd_delivers hs
  | a85Dec input => exact execA85Dec_delivers s input
  | reservedOpcode b => exact execReservedOpcode_delivers s b
  | lzwLiteral b => exact onLzwDec_delivers h _ (.literal b) fun _ => rfl
  | lzwClear => exact onLzwDec_delivers h _ .clear fun _ => rfl
  | lzwEnd => exact onLzwDec_delivers h _ .stop fun _ => rfl
  | lzwString k => exact onLzwDec_delivers h _ (.string k) fun _ => rfl
  | lzwNext => exact onLzwDec_delivers h _ .next fun _ => rfl
  | lzwIllegal k => exact onLzwDec_delivers h _ (.illegal k) fun _ => rfl
  | sbLength len => exact onSbUnpack_delivers h (.length len) fun _ => rfl
  | sbTerminator => exact onSbUnpack_delivers h .terminator fun _ => rfl
  | pbLiteral n => exact onPbDec_delivers (.literal n) fun _ => rfl
  | pbIllegal80 => exact onPbDec_delivers .illegal80 fun _ => rfl
  | pbRepeat x => exact onPbDec_delivers (.rep x) fun _ => rfl
  | cvPacket value k => exact execCvPacket_delivers value k
  | a85Digit d => exact onA85Dec_delivers h (.digit d) fun _ => rfl
  | a85Zero => exact onA85Dec_delivers h .zero fun _ => rfl
  | a85End => exact onA85Dec_delivers h .stop fun _ => rfl
  | a85Linebreak => exact onA85Dec_delivers h .linebreak fun _ => rfl
  | a85Whitespace b => exact onA85Dec_delivers h (.whitespace b) fun _ => rfl
  | a85Illegal b => exact onA85Dec_delivers h (.illegal b) fun _ => rfl
  | _ => rw [exec_code rfl]; exact acceptCode_delivers _

end

/-- Settles O56: every instruction delivers within the capacity (`exec_delivers`), and a result that is a byte stream is then
one of at most `OUT_CAPACITY` bytes. -/
theorem outputsStayWithinCapacity : Obligations.OutputsStayWithinCapacity := by
  intro s t i out hs ht hout
  refine (exec_delivers hs i t ht).imp_left fun hfits => ?_
  rw [hout] at hfits
  exact hfits

end Sys2Proof.Machine
end

section
/-! Bit strings and their values: the MSB-first bits of a number and the number a bit string stands for. -/

namespace Sys2Proof

theorem msbBits_succ (w v : Nat) : msbBits (w + 1) v = v.testBit w :: msbBits w v := by
  simp only [msbBits, List.range_succ_eq_map, List.map_cons, List.map_map, Nat.add_sub_cancel, Nat.sub_zero]
  refine congrArg _ (List.map_congr_left fun k _ => ?_)
  rw [Function.comp, Nat.sub_sub, Nat.add_comm 1 k]

theorem msbValue_append (xs ys : List Bool) : msbValue (xs ++ ys) = msbValue xs * 2 ^ ys.length + msbValue ys := by
  have hfold (a : Nat) : ys.foldl (fun v b => 2 * v + b.toNat) a = a * 2 ^ ys.length + msbValue ys := by
    induction ys generalizing a with
    | nil => simp [msbValue]
    | cons b bs ih =>
      have hcons : msbValue (b :: bs) = (2 * 0 + b.toNat) * 2 ^ bs.length + msbValue bs := ih _
      rw [List.foldl_cons, ih, hcons, List.length_cons]
      ring
  rw [msbValue, List.foldl_append, hfold]
  rfl

theorem msbValue_cons (b : Bool) (bs : List Bool) : msbValue (b :: bs) = b.toNat * 2 ^ bs.length + msbValue bs := by
  simpa [msbValue] using msbValue_append [b] bs

theorem msbValue_concat (bs : List Bool) (b : Bool) : msbValue (bs ++ [b]) = 2 * msbValue bs + b.toNat := by
  simp [msbValue]

theorem msbValue_lt (bits : List Bool) : msbValue bits < 2 ^ bits.length := by
  induction bits with
  | nil => simp [msbValue]
  | cons b bs ih =>
    rw [msbValue_cons, List.length_cons, Nat.pow_succ]
    cases b <;> simp <;> omega

/-- R8: the value of the low `w` bits of a number. -/
theorem msbValue_msbBits (w v : Nat) : msbValue (msbBits w v) = v % 2 ^ w := by
  induction w with
  | zero => simp [msbBits, msbValue, Nat.mod_one]
  | succ w ih =>
    rw [msbBits_succ, msbValue_cons, ih, msbBits_length, Nat.toNat_testBit, Nat.mod_pow_succ, Nat.add_comm, Nat.mul_comm]

/-- R8: a bit string is the bits of its value. -/
theorem msbBits_msbValue (bits : List Bool) : msbBits bits.length (msbValue bits) = bits := by
  induction bits with
  | nil => rfl
  | cons b bs ih =>
    have htest := Nat.testBit_two_pow_mul_add b.toNat (msbValue_lt bs)
    rw [List.length_cons, msbBits_succ, msbValue_cons, Nat.mul_comm]
    congr 1
    · rw [htest, if_neg (Nat.lt_irrefl _), Nat.sub_self]
      cases b <;> rfl
    · conv_rhs => rw [← ih]
      refine List.map_congr_left fun k hk => ?_
      rw [htest, if_pos (by have := List.mem_range.1 hk; omega)]

end Sys2Proof
end

section
/-! O20, O48 and O47. Neither of two rows of a colour's set has a code word that stands at the front of the other's
(`codeSet_pairwise`), so a lookup finds a row exactly by its code word (`lookupCode_eq_some_iff`) and the decoder reads no more
than that (`decodeEntry_bits`); what the encoder shows is then read back. -/

namespace Sys2Proof

open Sys2Proof.Machine

/-! ## The rows of a set -/

@[simp] theorem Entry.bits_length (e : Entry) : e.bits.length = e.bitLength := msbBits_length _ _

/-- R76: the lengths of the code words. -/
theorem bitLength_bounds :
    ∀ c, ∀ e ∈ codeSet c, 2 ≤ e.bitLength ∧ e.bitLength ≤ (if c = .white then 12 else 13) := by
  intro c
  cases c <;> decide +kernel

theorem code_lt : ∀ c, ∀ e ∈ codeSet c, e.code.toNat < 2 ^ e.bitLength := by
  intro c
  cases c <;> decide +kernel

/-- The value of a code word is the code of its row. -/
theorem msbValue_bits {c : Polarity} {e : Entry} (he : e ∈ codeSet c) : msbValue e.bits = e.code.toNat :=
  (msbValue_msbBits _ _).trans (Nat.mod_eq_of_lt (code_lt c e he))

/-- The code word of `a`, as a number, stands at the front of that of `b`. -/
abbrev Entry.front (a b : Entry) : Prop :=
  a.bitLength ≤ b.bitLength ∧ b.code.toNat / 2 ^ (b.bitLength - a.bitLength) = a.code.toNat

theorem Entry.front_of_prefix {c : Polarity} {a b : Entry} (ha : a ∈ codeSet c) (hb : b ∈ codeSet c)
    (h : a.bits <+: b.bits) : a.front b := by
  obtain ⟨rest, hrest⟩ := h
  have hlen : a.bitLength + rest.length = b.bitLength := by simpa using congrArg List.length hrest
  have hvalue := congrArg msbValue hrest
  rw [msbValue_append, msbValue_bits ha, msbValue_bits hb] at hvalue
  refine ⟨by omega, ?_⟩
  rw [show b.bitLength - a.bitLength = rest.length by omega, ← hvalue, Nat.mul_comm,
    Nat.mul_add_div (Nat.two_pow_pos _), Nat.div_eq_of_lt (msbValue_lt rest), Nat.add_zero]

theorem codeSet_front : ∀ c, (codeSet c).Pairwise fun a b => ¬ a.front b ∧ ¬ b.front a := by
  intro c
  cases c <;> decide +kernel

/-- R76: no code word of a set stands at the front of another. -/
theorem codeSet_pairwise (c : Polarity) : (codeSet c).Pairwise fun a b => ¬ a.bits <+: b.bits ∧ ¬ b.bits <+: a.bits :=
  (codeSet_front c).imp_of_mem fun ha hb hne =>
    ⟨fun h => hne.1 (Entry.front_of_prefix ha hb h), fun h => hne.2 (Entry.front_of_prefix hb ha h)⟩

theorem eq_of_bits_prefix {c : Polarity} {a b : Entry} (ha : a ∈ codeSet c) (hb : b ∈ codeSet c) (h : a.bits <+: b.bits) :
    a = b := by
  by_contra hne
  have : Std.Symm fun a b : Entry => ¬ a.bits <+: b.bits ∧ ¬ b.bits <+: a.bits := ⟨fun _ _ => And.symm⟩
  exact ((codeSet_pairwise c).forall ha hb hne).1 h

/-! ## Reading a code word -/

/-- R44: the lookup finds the row with exactly the bits read. -/
theorem lookupCode_eq_some_iff {c : Polarity} {bits : List Bool} {e : Entry} :
    lookupCode c bits.length (msbValue bits) = some e ↔ e ∈ codeSet c ∧ e.bits = bits := by
  have hfound {x : Entry} (h : lookupCode c bits.length (msbValue bits) = some x) : x ∈ codeSet c ∧ x.bits = bits := by
    have hx := List.find?_some h
    simp only [Bool.and_eq_true, beq_iff_eq] at hx
    refine ⟨List.mem_of_find?_eq_some h, ?_⟩
    rw [Entry.bits, hx.1, hx.2, msbBits_msbValue]
  refine ⟨hfound, ?_⟩
  rintro ⟨he, rfl⟩
  cases h : lookupCode c e.bits.length (msbValue e.bits) with
  | none => exact absurd (List.find?_eq_none.1 h e he) (by simp [msbValue_bits he])
  | some x =>
    obtain ⟨hx, hbits⟩ := hfound h
    rw [eq_of_bits_prefix hx he (hbits ▸ List.prefix_rfl)]

/-- R143: from any bit of a code word on, the decoder goes on to its end. -/
theorem matchCode_bits {c : Polarity} {e : Entry} (he : e ∈ codeSet c) (rest : List Bool) {fuel : Nat} {read left : List Bool}
    (hbits : e.bits = read ++ left) (hne : left ≠ []) (hfuel : left.length ≤ fuel) :
    matchCode c fuel read.length (msbValue read) (left ++ rest) = .ok e := by
  induction left generalizing read fuel with
  | nil => exact absurd rfl hne
  | cons b left ih =>
    cases fuel with
    | zero => exact absurd hfuel (by simp)
    | succ n =>
      have hbits' : e.bits = (read ++ [b]) ++ left := by simpa using hbits
      have hlen : read.length + 1 = (read ++ [b]).length := by simp
      rw [List.cons_append, matchCode, ← msbValue_concat, hlen]
      cases hx : lookupCode c (read ++ [b]).length (msbValue (read ++ [b])) with
      | some x =>
        obtain ⟨hmem, hxbits⟩ := lookupCode_eq_some_iff.1 hx
        rw [eq_of_bits_prefix hmem he ⟨left, by rw [hxbits, hbits']⟩]
      | none =>
        have hleft : left ≠ [] := by
          rintro rfl
          rw [lookupCode_eq_some_iff.2 ⟨he, by simpa using hbits'⟩] at hx
          cases hx
        exact ih hbits' hleft (Nat.le_of_succ_le_succ hfuel)

/-- R76: whatever follows a code word, the decoder reads that code word. -/
theorem decodeEntry_bits {c : Polarity} {e : Entry} (he : e ∈ codeSet c) (rest : List Bool) :
    decodeEntry c (e.bits ++ rest) = .ok e := by
  obtain ⟨hmin, hmax⟩ := bitLength_bounds c e he
  refine matchCode_bits he rest (read := []) rfl ?_ ?_
  · exact List.length_pos_iff.1 (by rw [e.bits_length]; omega)
  · rw [e.bits_length]
    exact hmax.trans (by split <;> decide)

theorem decode_bits {c : Polarity} {e : Entry} (he : e ∈ codeSet c) (rest : List Bool) :
    decode (.huf c (e.bits ++ rest)) = .ok e.instr := by
  rw [decode, decodeEntry_bits he]

/-- Settles O20: no code word stands at the front of another (`codeSet_pairwise`), so the decoder stops at the end of the one it reads
(`decodeEntry_bits`). -/
theorem codeSetsArePrefixFree : Obligations.CodeSetsArePrefixFree := by
  refine ⟨fun c => ⟨codeSet_pairwise c, fun e he => ?_⟩, by decide, by decide⟩
  obtain ⟨hmin, hmax⟩ := bitLength_bounds c e he
  exact ⟨hmin, hmax, e.bits_length, codeEntry_instr c e he, fun rest => ⟨decodeEntry_bits he rest, decode_bits he rest⟩⟩

/-! ## Commands and tokens -/

section

variable {i : Instr} {e : Entry} (h : codeEntry i = some e)

include h

theorem instr_of_codeEntry : e.instr = i := by
  cases i <;> cases h <;> decide +kernel

theorem mem_codeSet_of_codeEntry : e ∈ codeSet e.colour := by
  cases i <;> cases h <;> decide +kernel

theorem encode_of_codeEntry : encode i = .huf e.colour e.bits := by
  cases i <;> cases h <;> rfl

/-- R77: a code word is read back, since the encoder shows its row's bits in a set that holds the row. -/
theorem decode_codeWord : decode (encode i) = .ok i := by
  rw [encode_of_codeEntry h, ← List.append_nil e.bits, decode_bits (mem_codeSet_of_codeEntry h), instr_of_codeEntry h]

end

/-- Settles O48: an operation by its opcode's row, a token by the rule of its stream, a code word by its row
(`decode_codeWord`). -/
theorem decodeOfEncodeIsTheInstruction : Obligations.DecodeOfEncodeIsTheInstruction := by
  intro p i h
  cases i with
  | rmSet | rmGet | bwInit | bwFlush | brInit | brRead => rfl
  | hufEncBegin | hufEncLine | hufEncEnd | hufDecBegin | hufDecLine | hufDecPage => rfl
  | lzwEnc | lzwDec | sbPack | sbUnpack | pbEnc | pbDec | cvEnc | cvDec | a85EncEnd | a85Dec => rfl
  | bwWrite value width => exact roundTrip_of_build rfl rfl (buildInstr_bwWrite value width)
  | a85EncByte b => exact roundTrip_of_build rfl rfl (buildInstr_a85EncByte b)
  | reservedOpcode b => exact decode_reserved h
  | lzwLiteral c => exact decode_lzwLiteral c
  | lzwClear | lzwEnd | lzwNext => rfl
  | lzwString k => exact decode_lzwString h
  | lzwIllegal k => exact decode_lzwIllegal h
  | sbLength len => exact decode_sbLength h
  | sbTerminator => rfl
  | pbLiteral n => exact decode_pbLiteral n
  | pbIllegal80 => rfl
  | pbRepeat x => exact decode_pbRepeat h
  | cvPacket v k => exact decode_cvPacket v k
  | a85Digit d => exact decode_a85Digit h
  | a85Zero | a85End | a85Linebreak => rfl
  | a85Whitespace b => exact decode_a85Whitespace h
  | a85Illegal b => exact decode_a85Illegal h
  | _ => exact decode_codeWord rfl

/-- Settles O47: each word by the decoder of its stream. -/
theorem wordsDecodeToTheirInstructions : Obligations.WordsDecodeToTheirInstructions :=
  ⟨rfl, rfl, rfl, rfl, rfl, rfl, rfl, rfl, rfl, rfl, rfl, rfl, rfl, rfl, rfl⟩

end Sys2Proof
end

section
/-! O49. A byte is reserved exactly where the opcode table has no row for it. An operation with an operand out of range fails at
its operand check, before anything else it does (`operation_invalidOperand`). -/

namespace Sys2Proof.Machine

/-! ## Reserved opcodes -/

theorem decodeOpcode_eq_none_iff {b : Byte} : decodeOpcode b = none ↔ ∀ op : Opcode, op.byte ≠ b := by
  refine ⟨fun h op hop => ?_, fun h => Option.eq_none_iff_forall_ne_some.2 fun op hop => h op (decodeOpcode_byte hop)⟩
  have hrow : decodeOpcode op.byte = some op := by cases op <;> rfl
  rw [hop, h] at hrow
  cases hrow

theorem buildInstr_ne_reservedOpcode {op : Opcode} {args : List Operand} {b : Byte} :
    buildInstr op args ≠ some (.reservedOpcode b) := by
  intro h
  unfold buildInstr at h
  split at h <;> first | cases h | (split at h <;> cases h)

/-- R72: a command is a reserved opcode exactly where its byte is no operation's, whatever its operands. -/
theorem decode_eq_reservedOpcode_iff {b : Byte} {args : List Operand} :
    decode (.command b args) = .ok (.reservedOpcode b) ↔ decodeOpcode b = none := by
  simp only [decode, decodeCommand]
  cases hop : decodeOpcode b with
  | none => simp
  | some op =>
    cases hi : buildInstr op args with
    | none => simp [hi]
    | some i =>
      simp only [hi, Except.ok.injEq, reduceCtorEq, iff_false]
      rintro rfl
      exact buildInstr_ne_reservedOpcode hi

/-! ## Operand checks -/

/-- Operand values of which the operation of the opcode makes no instruction. -/
theorem decode_bad_operands {opcode : Byte} {op : Opcode} {args : List Operand} (hop : decodeOpcode opcode = some op)
    (hb : buildInstr op args = none) : decode (.command opcode args) = .error .operands := by
  simp [decode, decodeCommand, hop, hb]

/-- An operation that ends between operations, its draw used up. -/
theorem State.popDraw_finish {s : State} (ha : s.active = none) (u : Session) (st : Status) (r : Result) :
    s.popDraw.finish u st r = s.answered u st r := by
  simp [State.popDraw, State.answered, State.finish, ha]

section

variable {s : State} (hs : s.ready = true)

include hs

theorem State.popDraw_raise_invalidOperand (u : Session) :
    s.popDraw.raise u .invalidOperand = s.answered u .invalidOperand .nothing :=
  State.popDraw_finish ((s.ready_iff).1 hs).1 u _ _

/-- R72, R288: an operation whose first check fails has no other effect. -/
theorem operation_invalidOperand {α : Type} {x : Except ErrorKind α} (hx : x = .error .invalidOperand) (u : Session)
    (f : State → α → Except ErrorKind State) :
    operation u s (fun s => s.complete u (x >>= f s)) = .next (s.answered u .invalidOperand .nothing) := by
  rw [operation_ready hs, hx, ← State.popDraw_raise_invalidOperand hs]
  rfl

theorem execCvEnc_invalidOperand {runs : List CvRun} (hruns : runs.all (CvRun.ok s.params) = false) (total : Nat) :
    execCvEnc runs total s = .next (s.answered .cvEnc .invalidOperand .nothing) := by
  rw [execCvEnc, operation_ready hs, State.popDraw_params, if_pos hruns, State.popDraw_raise_invalidOperand hs]

end

theorem require_false {b : Bool} (h : b = false) : require b = .error .invalidOperand := by rw [h]; rfl

theorem orderOf_invalidOperand {o : Nat} (h : orderOk o = false) : orderOf o = .error .invalidOperand := by
  have ho : 1 < o := by simpa [orderOk] using h
  rw [orderOf, if_neg (by omega), if_neg (by omega)]

/-- R72, R288: every operation checks its operands first. -/
theorem exec_invalidOperand {s : State} {i : Instr} (hs : s.ready = true) (hi : isOperation i = true)
    (hwf : WellFormed s.params i = false) : exec i s = .next (s.answered (sessionOf i) .invalidOperand .nothing) := by
  cases i with
  | rmSet | bwWrite | brRead | hufEncBegin | hufEncLine | hufDecBegin =>
    rw [exec]
    exact operation_invalidOperand hs (require_false hwf) _ _
  | bwInit | brInit => rw [exec]; exact operation_invalidOperand hs (orderOf_invalidOperand hwf) _ _
  | cvEnc runs total => exact execCvEnc_invalidOperand hs hwf total
  | _ => first | cases hwf | cases hi

/-- Settles O49: the reserved bytes are those of no operation (`decode_eq_reservedOpcode_iff`), and every operation checks its
operands first (`exec_invalidOperand`). -/
theorem reservedOpcodesAndBadOperandsAreRefused : Obligations.ReservedOpcodesAndBadOperandsAreRefused := by
  refine ⟨fun b args => ?_, fun s b ha => ?_, fun s i => exec_invalidOperand, fun v w => ⟨fun hv => ?_, fun hv => ?_⟩⟩
  · rw [decode_eq_reservedOpcode_iff, decodeOpcode_eq_none_iff]
  · rw [exec, execReservedOpcode, ha]
    simp [State.raise_invalidOperand, State.finish]
  · exact decode_bad_operands (op := .bwWrite) rfl (if_neg (by omega))
  · exact decode_bad_operands (op := .a85EncByte) rfl (if_neg (by omega))

end Sys2Proof.Machine
end

section
/-! What a bit writer holds: each bit it is given stands after the bits it had (`BitWriter.putBits_bits`), and the flush pads
them with zero bits (`BitWriter.flush_packs`). -/

namespace Sys2Proof.Machine

/-! ## The bits of a byte -/

/-- R52: the position in its byte of the `k`-th bit of the stream. -/
def bitPos : BitOrder → Nat → Nat
  | .msb, k => 7 - k
  | .lsb, k => k

theorem BitWriter.pos_eq (b : BitWriter) : b.pos = bitPos b.order b.nbits := by
  unfold BitWriter.pos
  cases b.order <;> rfl

theorem bitPos_ne {o : BitOrder} {j k : Nat} (hjk : j < k) (hk : k < 8) : bitPos o j ≠ bitPos o k := by
  cases o <;> simp only [bitPos] <;> omega

theorem bitPos_lt {o : BitOrder} {k : Nat} (hk : k < 8) : bitPos o k < 8 := by
  cases o <;> simp only [bitPos] <;> omega

theorem streamBits_eight (o : BitOrder) (v : Nat) :
    streamBits o 8 v = (List.range 8).map fun k => v.testBit (bitPos o k) := by
  cases o <;> rfl

theorem take_streamBits_eight {n : Nat} (hn : n ≤ 8) (o : BitOrder) (v : Nat) :
    (streamBits o 8 v).take n = (List.range n).map fun k => v.testBit (bitPos o k) := by
  rw [streamBits_eight, ← List.map_take, List.take_range, Nat.min_eq_left hn]

/-- R102: a bit placed in a byte stands at its position, and the other positions are as they were. -/
theorem testBit_or_bit (acc : Byte) (x : Bool) {i : Nat} (hi : i < 8) (j : Nat) :
    (acc ||| (BitVec.ofNat 8 x.toNat <<< i)).toNat.testBit j = (acc.toNat.testBit j || (decide (i = j) && x)) := by
  rw [toNat_or_bit, Nat.testBit_or, Nat.testBit_mod_two_pow]
  cases x
  · simp
  · rw [Bool.toNat_true, Nat.one_mul, Nat.testBit_two_pow]
    by_cases hij : i = j
    · simp [← hij, hi]
    · simp [hij]

/-- R102: placing the next bit after the bits placed. -/
theorem take_streamBits_or_bit {o : BitOrder} {n : Nat} (hn : n < 8) {acc : Byte}
    (hacc : acc.toNat.testBit (bitPos o n) = false) (x : Bool) :
    (streamBits o 8 (acc ||| (BitVec.ofNat 8 x.toNat <<< bitPos o n)).toNat).take (n + 1) =
      (streamBits o 8 acc.toNat).take n ++ [x] := by
  rw [take_streamBits_eight hn, take_streamBits_eight (Nat.le_of_lt hn), List.range_succ, List.map_append, List.map_singleton]
  congr 1
  · refine List.map_congr_left fun k hk => ?_
    rw [testBit_or_bit _ _ (bitPos_lt hn), decide_eq_false (bitPos_ne (List.mem_range.1 hk) hn).symm, Bool.false_and,
      Bool.or_false]
  · rw [testBit_or_bit _ _ (bitPos_lt hn), hacc, decide_eq_true rfl, Bool.true_and, Bool.false_or]

/-! ## The bits of a writer -/

namespace BitWriter

variable {p : Params} {b b' : BitWriter}

theorem bits_length (hn : b.nbits < 8) : b.bits.length = 8 * b.out.length + b.nbits := by
  simp [bits, bitsOf, Nat.mul_comm, Nat.min_eq_left (Nat.le_of_lt hn)]

/-- R26: the positions of `acc` not yet placed are 0. -/
theorem acc_testBit (hb : b.wf p = true) {k : Nat} (hk : b.nbits ≤ k) (h8 : k < 8) :
    b.acc.toNat.testBit (bitPos b.order k) = false := by
  obtain ⟨-, -, hmsb, hlsb⟩ := wf_iff.1 hb
  cases ho : b.order with
  | msb =>
    have hbit := congrArg (Nat.testBit · (7 - k)) (hmsb ho)
    simpa [bitPos, Nat.testBit_mod_two_pow, show 7 - k < 8 - b.nbits by omega] using hbit
  | lsb => exact Nat.testBit_lt_two_pow ((hlsb ho).trans_le (Nat.pow_le_pow_right (by decide) hk))

theorem putBit_bits {cap : Nat} {x : Bool} (hb : b.wf p = true) (h : b.putBit cap x = .ok b') :
    b'.bits = b.bits ++ [x] := by
  obtain ⟨hn, -⟩ := wf_iff.1 hb
  have hplace := take_streamBits_or_bit hn (acc_testBit hb (Nat.le_refl _) hn) x
  rw [← pos_eq] at hplace
  obtain ⟨ho, ⟨h8, -, hn', hacc, hout⟩ | ⟨-, hn', hout, hacc⟩⟩ := putBit_ok h
  · rw [h8, List.take_of_length_le (by simp)] at hplace
    rw [bits, ho, hn', hout, List.take_zero, List.append_nil, bitsOf, List.flatMap_append, List.flatMap_singleton, hplace,
      ← List.append_assoc]
    rfl
  · rw [bits, ho, hn', hout, hacc, hplace, bits, List.append_assoc]

/-- R104: the bits written stand after the bits held, in the order written. -/
theorem putBits_bits {xs : List Bool} (hb : b.wf p = true) (h : b.putBits p.outCapacity xs = .ok b') :
    b'.bits = b.bits ++ xs := by
  induction xs generalizing b with
  | nil => cases h; simp
  | cons x xs ih =>
    simp only [putBits] at h
    split at h
    · rename_i b₁ h₁
      rw [ih (putBit_wf hb h₁) h, putBit_bits hb h₁, List.append_assoc, List.singleton_append]
    · cases h

theorem putBits_order {cap : Nat} {xs : List Bool} (h : b.putBits cap xs = .ok b') : b'.order = b.order := by
  induction xs generalizing b with
  | nil => cases h; rfl
  | cons x xs ih =>
    simp only [putBits] at h
    split at h
    · rename_i b₁ h₁
      exact (ih h).trans (putBit_ok h₁).1
    · cases h

/-- A write of two bit strings is a write of the first and then of the second. -/
theorem putBits_append_ok {cap : Nat} {xs ys : List Bool} {b'' : BitWriter} (h : b.putBits cap (xs ++ ys) = .ok b'') :
    ∃ b', b.putBits cap xs = .ok b' ∧ b'.putBits cap ys = .ok b'' := by
  rw [putBits_append] at h
  split at h
  · rename_i b₁ h₁
    exact ⟨b₁, h₁, h⟩
  · cases h

/-- R103, R54: the flush returns the bits held and fewer than 8 zero bits. -/
theorem flush_packs (hb : b.wf p = true) (hcap : (b.bits.length + 7) / 8 ≤ p.outCapacity) :
    ∃ out, b.flush p.outCapacity = .ok out ∧ packs b.order b.bits out := by
  obtain ⟨hn, -⟩ := wf_iff.1 hb
  rw [bits_length hn] at hcap
  unfold flush
  split
  · rename_i hpos
    refine ⟨b.out ++ [b.acc], emit_ok_iff.2 ⟨by omega, rfl⟩, 8 - b.nbits, by omega, ?_⟩
    have hzero : (streamBits b.order 8 b.acc.toNat).drop b.nbits = List.replicate (8 - b.nbits) false := by
      refine List.ext_getElem (by simp) fun k hk _ => ?_
      simp only [List.length_drop, streamBits_length] at hk
      simp [streamBits_eight, acc_testBit hb (Nat.le_add_right _ k) (by omega)]
    rw [bits, List.append_assoc, ← hzero, List.take_append_drop]
    simp [bitsOf]
  · exact ⟨b.out, rfl, 0, by decide, by simp [bits, show b.nbits = 0 by omega]⟩

end BitWriter

end Sys2Proof.Machine
end

section
/-! O15. The Huffman encoder writes code words and nothing else, so each of its parts is one write of their bits
(`HufEnc.encodeLine_eq`, `HufEnc.pad_eq`), and a page is one write of all of them. -/

namespace Sys2Proof.Machine

/-! ## The encoder writes code words -/

theorem codeBits_cons (e : Entry) (es : List Entry) : codeBits (e :: es) = e.bits ++ codeBits es := List.flatMap_cons

theorem codeBits_append (es es' : List Entry) : codeBits (es ++ es') = codeBits es ++ codeBits es' := List.flatMap_append

namespace HufEnc

variable {cap : Nat} {h : HufEnc} (ho : h.bw.order = .msb)

include ho

theorem put_eq (e : Entry) : h.put cap e = (h.bw.putBits cap e.bits).map fun bw => { h with bw := bw } := by
  have hw : h.bw.writeBits cap e.code.toNat e.bitLength = h.bw.putBits cap e.bits := by
    rw [BitWriter.writeBits, ho]; rfl
  rw [put, hw]
  cases h.bw.putBits cap e.bits <;> rfl

theorem putAll_eq (es : List Entry) :
    h.putAll cap es = (h.bw.putBits cap (codeBits es)).map fun bw => { h with bw := bw } := by
  induction es generalizing h with
  | nil => rfl
  | cons e es ih =>
    rw [putAll, put_eq ho, codeBits_cons, BitWriter.putBits_append]
    cases hp : h.bw.putBits cap e.bits with
    | ok b => exact ih (h := { h with bw := b }) ((BitWriter.putBits_order hp).trans ho)
    | error x => rfl

/-- R131, R133: the runs of a row are their codes; the colour left is the one after the last run. -/
theorem encodeRuns_eq (rs : List (Polarity × Nat)) :
    h.encodeRuns cap rs = (h.bw.putBits cap (codeBits (rs.flatMap fun r => runCodes r.1 r.2))).map
      fun bw => { h with bw := bw, color := rs.foldl (fun _ r => r.1.flip) h.color } := by
  induction rs generalizing h with
  | nil => rfl
  | cons r rs ih =>
    rw [encodeRuns, encodeRun, putAll_eq ho, List.flatMap_cons, codeBits_append, BitWriter.putBits_append]
    cases hp : h.bw.putBits cap (codeBits (runCodes r.1 r.2)) with
    | ok b => exact ih (h := { h with bw := b, color := r.1.flip }) ((BitWriter.putBits_order hp).trans ho)
    | error x => rfl

/-- R131, R135: a scanline is one write of its bits. -/
theorem encodeLine_eq (px : List Polarity) :
    h.encodeLine cap px = (h.bw.putBits cap (lineBits px)).map fun bw => ⟨h.columns, bw, .white, 1⟩ := by
  rw [encodeLine, encodeRuns_eq ho, lineBits, rowCodes, BitWriter.putBits_append]
  cases hp : h.bw.putBits cap _ with
  | ok b =>
    show (put cap { h with bw := b, color := _ } eolEntry >>= _) = Except.map _ (b.putBits cap eolEntry.bits)
    rw [put_eq ((BitWriter.putBits_order hp).trans ho)]
    cases b.putBits cap eolEntry.bits <;> rfl
  | error x => rfl

/-- R138: the missing EOLs are one write of their bits. -/
theorem pad_eq (n : Nat) :
    pad cap n h = (h.bw.putBits cap (codeBits (List.replicate n eolEntry))).map
      fun bw => { h with bw := bw, trailingEols := h.trailingEols + n } := by
  induction n generalizing h with
  | zero => rfl
  | succ n ih =>
    rw [pad, put_eq ho, List.replicate_succ, codeBits_cons, BitWriter.putBits_append]
    cases hp : h.bw.putBits cap eolEntry.bits with
    | ok b =>
      have hrest := ih (h := { h with bw := b, trailingEols := h.trailingEols + 1 }) ((BitWriter.putBits_order hp).trans ho)
      simp only [Nat.add_assoc, Nat.add_comm 1 n] at hrest
      exact hrest
    | error x => rfl

end HufEnc

/-! ## The operations of the encoder -/

theorem State.quiet_iff {s : State} : s.quiet = true ↔ s.active = none ∧ ∀ b ∈ s.allocDraws, b = false := by
  simp [State.quiet]

theorem State.ready_of_quiet {s : State} (h : s.quiet = true) : s.ready = true := by
  obtain ⟨ha, hdraws⟩ := State.quiet_iff.1 h
  refine (s.ready_iff).2 ⟨ha, ?_⟩
  unfold State.allocFails
  cases hd : s.allocDraws with
  | nil => rfl
  | cons b _ => exact hdraws b (by simp [hd])

theorem State.quiet_answered {s : State} (h : s.quiet = true) (u : Session) (st : Status) (r : Result) :
    (s.answered u st r).quiet = true := by
  obtain ⟨ha, hdraws⟩ := State.quiet_iff.1 h
  exact State.quiet_iff.2 ⟨ha, fun b hb => hdraws b (List.mem_of_mem_tail hb)⟩

@[simp] theorem ok_bind {ε α β : Type} (a : α) (f : α → Except ε β) : (Except.ok a >>= f) = f a := rfl

@[simp] theorem map_ok {ε α β : Type} (f : α → β) (a : α) : (f <$> Except.ok a : Except ε β) = .ok (f a) := rfl

section

variable {s : State} (hs : s.ready = true)

include hs

theorem exec_hufEncBegin {columns : Nat} (hc : columnsOk columns = true) :
    exec (.hufEncBegin columns) s =
      .next { s.answered .hufEnc .ok .nothing with hufEnc := some ⟨columns, BitWriter.fresh .msb, .white, 0⟩ } := by
  rw [exec, execHufEncBegin, operation_ready hs]
  simp [require, hc, State.popDraw, State.answered, State.finish, ((s.ready_iff).1 hs).1]

variable {h : HufEnc} {bw : BitWriter} (hh : s.hufEnc = some h) (ho : h.bw.order = .msb)

include hh ho

/-- R131: a scanline of the columns declared appends its bits. -/
theorem exec_hufEncLine {line : Line} (hok : line.ok = true) (hlen : (linePixels line).length = h.columns)
    (hw : h.bw.putBits s.params.outCapacity (lineBits (linePixels line)) = .ok bw) :
    exec (.hufEncLine line) s =
      .next { s.answered .hufEnc .ok .nothing with hufEnc := some ⟨h.columns, bw, .white, 1⟩ } := by
  rw [exec, execHufEncLine, operation_ready hs]
  simp [require, requireSession, hok, hh, hlen, HufEnc.encodeLine_eq ho, hw, Except.map, State.popDraw, State.answered,
    State.finish, ((s.ready_iff).1 hs).1]

/-- R138: the end appends the missing EOLs and returns the bytes. -/
theorem exec_hufEncEnd {out : List Byte}
    (hw : h.bw.putBits s.params.outCapacity (codeBits (List.replicate (6 - h.trailingEols) eolEntry)) = .ok bw)
    (hflush : bw.flush s.params.outCapacity = .ok out) :
    exec .hufEncEnd s = .next { s.answered .hufEnc .ok (.bytes out) with hufEnc := none } := by
  rw [exec, execHufEncEnd, operation_ready hs]
  simp [requireSession, hh, hufRtcEols, HufEnc.pad_eq ho, hw, Except.map, hflush, State.close, State.popDraw, State.answered,
    State.finish, ((s.ready_iff).1 hs).1]

end

/-! ## A page -/

theorem execAll_cons {i : Instr} {is : List Instr} {s t : State} (h : exec i s = .next t) :
    execAll (i :: is) s = execAll is t := by
  rw [execAll, h]

/-- R137: the scanlines of a page are one write of their bits, with no alignment between them. -/
theorem execAll_hufEncLine {columns eols : Nat} {lines : List Line} {bw bw' : BitWriter} {s : State}
    (hlines : ∀ l ∈ lines, l.ok = true ∧ (linePixels l).length = columns) (hs : s.quiet = true)
    (hh : s.hufEnc = some ⟨columns, bw, .white, eols⟩) (ho : bw.order = .msb)
    (hw : bw.putBits s.params.outCapacity ((lines.map linePixels).flatMap lineBits) = .ok bw') (rest : List Instr) :
    ∃ t, execAll (lines.map Instr.hufEncLine ++ rest) s = execAll rest t ∧ t.quiet = true ∧ t.params = s.params ∧
      t.hufEnc = some ⟨columns, bw', .white, if lines = [] then eols else 1⟩ := by
  induction lines generalizing s bw eols with
  | nil => cases hw; exact ⟨s, rfl, hs, rfl, hh⟩
  | cons line lines ih =>
    obtain ⟨⟨hok, hlen⟩, hlines⟩ := List.forall_mem_cons.1 hlines
    rw [List.map_cons, List.flatMap_cons] at hw
    obtain ⟨b, hb, hw⟩ := BitWriter.putBits_append_ok hw
    have henc := exec_hufEncLine (State.ready_of_quiet hs) hh ho hok hlen hb
    obtain ⟨t, ht, hq, hp, hh'⟩ := ih
      (s := { s.answered .hufEnc .ok .nothing with hufEnc := some ⟨columns, b, .white, 1⟩ })
      hlines (State.quiet_answered hs .hufEnc .ok .nothing) rfl ((BitWriter.putBits_order hb).trans ho) hw
    refine ⟨t, ?_, hq, hp, by simpa using hh'⟩
    rw [List.map_cons, List.cons_append, execAll_cons henc]
    exact ht

/-- R138: the EOLs missing from six, after the scanlines of a page. -/
theorem missing_eols (lines : List Line) :
    (6 - if lines = [] then 0 else 1) = if lines.map linePixels = [] then 6 else 5 := by
  cases lines <;> rfl

/-- Settles O15: the page is one write of its bits from the fresh writer (`execAll_hufEncLine`, `exec_hufEncEnd`), whose bytes
pack them (`BitWriter.putBits_bits`, `BitWriter.flush_packs`). -/
theorem huffmanPageStreamFormat : Obligations.HuffmanPageStreamFormat := by
  intro s columns lines hs hmin hmax hlines hcap
  obtain ⟨bw, hbw⟩ : ∃ bw, (BitWriter.fresh .msb).putBits s.params.outCapacity (pageBits (lines.map linePixels)) = .ok bw :=
    BitWriter.putBits_fits (by decide) (by simp [BitWriter.fresh]; omega)
  have hbits : bw.bits = pageBits (lines.map linePixels) := BitWriter.putBits_bits (BitWriter.fresh_wf _ _) hbw
  obtain ⟨hwf, hord⟩ := BitWriter.putBits_wf (BitWriter.fresh_wf _ _) hbw
  obtain ⟨out, hflush, hpacks⟩ := BitWriter.flush_packs hwf (by rwa [hbits])
  rw [hbits, hord] at hpacks
  obtain ⟨b, hb, heols⟩ := BitWriter.putBits_append_ok hbw
  have hbegin := exec_hufEncBegin (State.ready_of_quiet hs) (columns := columns) (by simp [columnsOk, maxColumns, hmin, hmax])
  obtain ⟨t, ht, hq, hp, hh⟩ := execAll_hufEncLine
    (s := { s.answered .hufEnc .ok .nothing with hufEnc := some ⟨columns, BitWriter.fresh .msb, .white, 0⟩ })
    hlines (State.quiet_answered hs .hufEnc .ok .nothing) rfl rfl hb [.hufEncEnd]
  have hp : t.params = s.params := hp
  have hend := exec_hufEncEnd (State.ready_of_quiet hq) hh (BitWriter.putBits_order hb)
    (by rw [hp, missing_eols]; exact heols) (by rw [hp]; exact hflush)
  refine ⟨{ t.answered .hufEnc .ok (.bytes out) with hufEnc := none }, out, ?_, rfl, rfl, rfl, hpacks⟩
  rw [hufEncPage, List.cons_append, execAll_cons hbegin]
  exact ht.trans (execAll_cons hend)

end Sys2Proof.Machine
end

section
/-! O2, O3 and O4. The run-model register, and the opening of a bit writer or a bit reader: one rule for each operation, whose
frame is that of `State.answered`. -/

namespace Sys2Proof.Machine

@[simp] theorem error_bind {ε α β : Type} (e : ε) (f : α → Except ε β) : (Except.error e >>= f) = .error e := rfl

theorem State.active_of_ready {s : State} (h : s.ready = true) : s.active = none := by
  obtain ⟨ha, -⟩ := (s.ready_iff).1 h
  exact ha

section

variable {s : State} (hs : s.ready = true)

include hs

/-! ## The run-model register -/

theorem exec_rmSet {sample : PixelSample} {count : Nat} (hc : countOk count = true) :
    exec (.rmSet sample count) s =
      .next { s.answered .none .ok .nothing with rm := some ⟨sample, BitVec.ofNat 16 (count - 1)⟩ } := by
  rw [exec, execRmSet, operation_ready hs]
  simp [require, hc, State.finish, State.answered, State.popDraw, State.active_of_ready hs]

theorem exec_rmGet {r : Run} (hr : s.rm = some r) :
    exec .rmGet s = .next (s.answered .none .ok (.run r.sample (r.length.toNat + 1))) := by
  rw [exec, execRmGet, operation_ready hs]
  simp [requireSession, hr, Run.count, State.popDraw_finish (State.active_of_ready hs)]

/-! ## The sessions of the bit writer and the bit reader -/

theorem exec_bwInit {o : Nat} {order : BitOrder} (ho : orderOf o = .ok order) :
    exec (.bwInit o) s = .next { s.answered .bitWriter .ok .nothing with bw := some (BitWriter.fresh order) } := by
  rw [exec, execBwInit, operation_ready hs]
  simp [ho, State.openSession, State.finish, State.answered, State.popDraw, State.active_of_ready hs]

theorem exec_brInit {o : Nat} {order : BitOrder} (ho : orderOf o = .ok order) (input : List Byte) :
    exec (.brInit o input) s = .next { s.answered .bitReader .ok .nothing with br := some (BitReader.fresh order input) } := by
  rw [exec, execBrInit, operation_ready hs]
  simp [ho, State.openSession, State.finish, State.answered, State.popDraw, State.active_of_ready hs]

end

/-- Settles O2: the count is checked, and one in range is stored less one in 16 bits (`exec_rmSet`). -/
theorem rmSetStoresTheCountLessOne : Obligations.RmSetStoresTheCountLessOne := by
  intro s sample count hs
  refine ⟨fun ⟨hmin, hmax⟩ => ⟨exec_rmSet hs (by simp [countOk, runCountMax, hmin, hmax]), ?_⟩, fun hbad => ?_⟩
  · rw [BitVec.toNat_ofNat, Nat.mod_eq_of_lt (by omega)]
  · have hc : countOk count = false := by
      obtain rfl | hmax := hbad
      · rfl
      · exact Bool.and_eq_false_iff.2 (.inr (decide_eq_false (Nat.not_le.2 hmax)))
    exact exec_invalidOperand hs rfl hc

/-- Settles O3: a written register is returned (`exec_rmGet`), and an unwritten one is refused at the read. -/
theorem rmGetReturnsTheLengthPlusOne : Obligations.RmGetReturnsTheLengthPlusOne := by
  intro s hs
  refine ⟨fun hnone => ?_, fun r hr => exec_rmGet hs hr⟩
  rw [exec, execRmGet, operation_ready hs]
  simp [requireSession, hnone, State.popDraw_raise_invalidOperand hs]

/-- Settles O4: the order names a fresh session of its unit, or is refused (`exec_bwInit`, `exec_brInit`). -/
theorem bitSessionsOpenFresh : Obligations.BitSessionsOpenFresh := by
  intro s order input hs
  refine ⟨?_, ?_, fun hbad => ?_⟩
  · rintro rfl; exact ⟨exec_bwInit hs rfl, exec_brInit hs rfl input⟩
  · rintro rfl; exact ⟨exec_bwInit hs rfl, exec_brInit hs rfl input⟩
  · have ho : orderOk order = false := by simp [orderOk, hbad]
    exact ⟨exec_invalidOperand hs rfl ho, exec_invalidOperand hs rfl ho⟩

end Sys2Proof.Machine
end

section
/-! O5, O6 and O7. A write that fits appends its bits (`BitWriter.putBits_appends`) and one that does not raises
AllocationFailure (`BitWriter.putBits_full`); a list of `BW_WRITE`s is one write of all their bits (`execAll_bwWrite`). -/

namespace Sys2Proof.Machine

/-! ## What fits in the output -/

namespace BitWriter

variable {p : Params} {b : BitWriter} (hb : b.wf p = true)

include hb

/-- R102, R104: a write whose whole bytes fit. -/
theorem putBits_appends {xs : List Bool} (hcap : (b.bits.length + xs.length) / 8 ≤ p.outCapacity) :
    ∃ b', b.putBits p.outCapacity xs = .ok b' ∧ b'.order = b.order ∧ b'.wf p = true ∧ b'.bits = b.bits ++ xs := by
  obtain ⟨hn, -⟩ := wf_iff.1 hb
  rw [bits_length hn] at hcap
  obtain ⟨b', h⟩ := putBits_fits hn hcap
  obtain ⟨hwf, ho⟩ := putBits_wf hb h
  exact ⟨b', h, ho, hwf, putBits_bits hb h⟩

/-- R62: a write whose whole bytes do not fit. -/
theorem putBits_full {xs : List Bool} (hcap : p.outCapacity < (b.bits.length + xs.length) / 8) :
    b.putBits p.outCapacity xs = .error .allocationFailure := by
  cases h : b.putBits p.outCapacity xs with
  | error e => rw [putBits_error h]
  | ok b' =>
    obtain ⟨hwf, -⟩ := putBits_wf hb h
    obtain ⟨hn, hout, -⟩ := wf_iff.1 hwf
    have hlen := congrArg List.length (putBits_bits hb h)
    rw [bits_length hn, List.length_append] at hlen
    omega

/-- R62: a flush whose partial byte does not fit. -/
theorem flush_full (hcap : p.outCapacity < (b.bits.length + 7) / 8) :
    b.flush p.outCapacity = .error .allocationFailure := by
  obtain ⟨hn, hout, -⟩ := wf_iff.1 hb
  rw [bits_length hn] at hcap
  rw [flush, if_pos (by omega)]
  exact emit_error_iff.2 ⟨by omega, rfl⟩

end BitWriter

/-! ## The operations of the writer -/

/-- R72, R312: an operation with an operand check and no session is refused by one or the other. -/
theorem require_bind_noSession {α β : Type} (ok : Bool) (f : α → Except ErrorKind β) :
    (require ok >>= fun _ => requireSession none >>= f) = .error .invalidOperand := by
  cases ok <;> rfl

section

variable {s : State} (hs : s.ready = true)

include hs

/-- R62, R285: an operation of the bit writer whose output does not fit closes the session. -/
theorem State.popDraw_raise_bitWriter_allocationFailure :
    s.popDraw.raise .bitWriter .allocationFailure =
      { s.answered .bitWriter .allocationFailure .nothing with bw := none } := by
  rw [State.raise_of_ne _ _ _ (by decide)]
  simp [State.close, State.finish, State.answered, State.popDraw, State.active_of_ready hs, ErrorKind.status]

variable {b : BitWriter} (hb : s.bw = some b)

include hb

theorem exec_bwWrite {b' : BitWriter} {value : Word16} {width : Nat} (hwidth : width ≤ 16)
    (h : b.putBits s.params.outCapacity (streamBits b.order width value.toNat) = .ok b') :
    exec (.bwWrite value width) s = .next { s.answered .bitWriter .ok .nothing with bw := some b' } := by
  have hok : widthOk width = true := decide_eq_true hwidth
  rw [exec, execBwWrite, operation_ready hs]
  simp [hok, require, requireSession, hb, BitWriter.writeBits, h, State.finish, State.answered, State.popDraw,
    State.active_of_ready hs]

theorem exec_bwWrite_full {value : Word16} {width : Nat} (hwidth : width ≤ 16)
    (h : b.putBits s.params.outCapacity (streamBits b.order width value.toNat) = .error .allocationFailure) :
    exec (.bwWrite value width) s = .next { s.answered .bitWriter .allocationFailure .nothing with bw := none } := by
  have hok : widthOk width = true := decide_eq_true hwidth
  rw [exec, execBwWrite, operation_ready hs]
  simp [hok, require, requireSession, hb, BitWriter.writeBits, h, State.popDraw_raise_bitWriter_allocationFailure hs]

theorem exec_bwFlush {out : List Byte} (h : b.flush s.params.outCapacity = .ok out) :
    exec .bwFlush s = .next { s.answered .bitWriter .ok (.bytes out) with bw := none } := by
  rw [exec, execBwFlush, operation_ready hs]
  simp [requireSession, hb, h, State.close, State.finish, State.answered, State.popDraw, State.active_of_ready hs]

end

/-- Settles O5: the bits are appended where they fit (`BitWriter.putBits_appends`, `BitWriter.putBits_full`). -/
theorem bwWriteAppendsTheLowBits : Obligations.BwWriteAppendsTheLowBits := by
  intro s value width hs
  refine ⟨fun hwidth => ?_, fun hnone => ?_, fun b hb hwf hwidth => ⟨fun hcap => ?_, fun hcap => ?_⟩⟩
  · exact exec_invalidOperand hs rfl (decide_eq_false (Nat.not_le.2 hwidth))
  · rw [exec, execBwWrite, operation_ready hs, State.popDraw_bw, hnone, require_bind_noSession, State.complete_error,
      State.popDraw_raise_invalidOperand hs]
  · obtain ⟨b', h, hrest⟩ := BitWriter.putBits_appends hwf (xs := streamBits b.order width value.toNat)
      (by rwa [streamBits_length])
    exact ⟨b', exec_bwWrite hs hb hwidth h, hrest⟩
  · exact exec_bwWrite_full hs hb hwidth (BitWriter.putBits_full hwf (by rwa [streamBits_length]))

/-- Settles O7: the flush pads the bits where they fit (`BitWriter.flush_packs`, `BitWriter.flush_full`). -/
theorem bwFlushReturnsThePaddedBits : Obligations.BwFlushReturnsThePaddedBits := by
  intro s hs
  refine ⟨fun hnone => ?_, fun b hb hwf => ⟨fun hcap => ?_, fun hcap => ?_⟩⟩
  · rw [exec, execBwFlush, operation_ready hs]
    simp [requireSession, hnone, State.popDraw_raise_invalidOperand hs]
  · obtain ⟨out, h, hpacks⟩ := BitWriter.flush_packs hwf hcap
    exact ⟨out, exec_bwFlush hs hb h, hpacks⟩
  · rw [exec, execBwFlush, operation_ready hs]
    simp [requireSession, hb, BitWriter.flush_full hwf hcap, State.popDraw_raise_bitWriter_allocationFailure hs]

/-! ## A list of writes -/

/-- R102, R104: the bits of a list of `BW_WRITE`s, each the low bits of its value. -/
def writtenBits (order : BitOrder) (ws : List (Word16 × Nat)) : List Bool :=
  ws.flatMap fun w => streamBits order w.2 w.1.toNat

theorem writtenBits_cons (order : BitOrder) (w : Word16 × Nat) (ws : List (Word16 × Nat)) :
    writtenBits order (w :: ws) = streamBits order w.2 w.1.toNat ++ writtenBits order ws := List.flatMap_cons

theorem writtenBits_append (order : BitOrder) (ws ws' : List (Word16 × Nat)) :
    writtenBits order (ws ++ ws') = writtenBits order ws ++ writtenBits order ws' := List.flatMap_append

theorem writtenBits_length (order : BitOrder) (ws : List (Word16 × Nat)) :
    (writtenBits order ws).length = (ws.map Prod.snd).sum := by
  simp [writtenBits, List.length_flatMap]

/-- R104: `BW_WRITE`s one after the other are one write of their bits. -/
theorem execAll_bwWrite {ws : List (Word16 × Nat)} {b b' : BitWriter} {s : State} (hws : ∀ w ∈ ws, w.2 ≤ 16)
    (hs : s.quiet = true) (hb : s.bw = some b)
    (h : b.putBits s.params.outCapacity (writtenBits b.order ws) = .ok b') (rest : List Instr) :
    ∃ t, execAll (ws.map (fun w => .bwWrite w.1 w.2) ++ rest) s = execAll rest t ∧ t.quiet = true ∧
      t.params = s.params ∧ t.bw = some b' := by
  induction ws generalizing s b with
  | nil => cases h; exact ⟨s, rfl, hs, rfl, hb⟩
  | cons w ws ih =>
    obtain ⟨hw, hws⟩ := List.forall_mem_cons.1 hws
    rw [writtenBits_cons] at h
    obtain ⟨b₁, h₁, h⟩ := BitWriter.putBits_append_ok h
    rw [← BitWriter.putBits_order h₁] at h
    obtain ⟨t, ht, hrest⟩ := ih (s := { s.answered .bitWriter .ok .nothing with bw := some b₁ }) hws
      (State.quiet_answered hs .bitWriter .ok .nothing) rfl h
    refine ⟨t, ?_, hrest⟩
    rw [List.map_cons, List.cons_append, execAll_cons (exec_bwWrite (State.ready_of_quiet hs) hb hw h₁)]
    exact ht

/-- R104: the writer after `BW_INIT` and a list of `BW_WRITE`s that fit. -/
theorem execAll_bwInit_bwWrite {s : State} {o : Nat} {order : BitOrder} {ws : List (Word16 × Nat)} (hs : s.quiet = true)
    (ho : orderOf o = .ok order) (hws : ∀ w ∈ ws, w.2 ≤ 16) (hcap : (ws.map Prod.snd).sum / 8 ≤ s.params.outCapacity)
    (rest : List Instr) :
    ∃ t b, execAll (.bwInit o :: ws.map (fun w => .bwWrite w.1 w.2) ++ rest) s = execAll rest t ∧ t.quiet = true ∧
      t.params = s.params ∧ t.bw = some b ∧ b.order = order ∧ b.wf s.params = true ∧ b.bits = writtenBits order ws := by
  obtain ⟨b, h, hord, hwf, hbits⟩ := BitWriter.putBits_appends (BitWriter.fresh_wf s.params order)
    (xs := writtenBits order ws) (by simpa [writtenBits_length, BitWriter.fresh, BitWriter.bits, bitsOf] using hcap)
  obtain ⟨t, ht, hq, hp, hbw⟩ := execAll_bwWrite
    (s := { s.answered .bitWriter .ok .nothing with bw := some (BitWriter.fresh order) }) hws
    (State.quiet_answered hs .bitWriter .ok .nothing) rfl h rest
  refine ⟨t, b, ?_, hq, hp, hbw, hord, hwf, hbits⟩
  rw [List.cons_append, execAll_cons (exec_bwInit (State.ready_of_quiet hs) ho)]
  exact ht

/-- Settles O6: the writer holds the bits written (`execAll_bwInit_bwWrite`), whole bytes in `Out` and fewer than eight in
`acc` (`BitWriter.bits_length`). -/
theorem writesKeepEveryBitInOrder : Obligations.WritesKeepEveryBitInOrder := by
  intro s o order ws hs ho hws hcap
  have ho : orderOf o = .ok order := by
    obtain ⟨rfl, rfl⟩ | ⟨rfl, rfl⟩ := ho <;> rfl
  obtain ⟨t, b, ht, -, -, hbw, hord, hwf, hbits⟩ := execAll_bwInit_bwWrite hs ho hws hcap []
  rw [List.append_nil] at ht
  obtain ⟨hn, -⟩ := BitWriter.wf_iff.1 hwf
  have hlen := BitWriter.bits_length hn
  rw [hbits, writtenBits_length] at hlen
  exact ⟨t, b, ht, hbw, hord, by omega, by omega, hbits⟩

end Sys2Proof.Machine
end

section
/-! O8 and O9. What a bit reader has left: `BitReader.peek` shows its next bits (`BitReader.peek_eq_take`), and the bits of a
number read back give the number within their width (`streamValue_streamBits`). -/

namespace Sys2Proof

theorem lsbBits_succ (w v : Nat) : lsbBits (w + 1) v = v.testBit 0 :: lsbBits w (v / 2) := by
  simp only [lsbBits, List.range_succ_eq_map, List.map_cons, List.map_map]
  exact congrArg _ (List.map_congr_left fun k _ => Nat.testBit_succ v k)

/-- R52: the value of the low `w` bits of a number. -/
theorem lsbValue_lsbBits (w v : Nat) : lsbValue (lsbBits w v) = v % 2 ^ w := by
  induction w generalizing v with
  | zero => simp [lsbBits, lsbValue, Nat.mod_one]
  | succ w ih =>
    have hcons : lsbValue (lsbBits (w + 1) v) = (v.testBit 0).toNat + 2 * lsbValue (lsbBits w (v / 2)) := by
      rw [lsbBits_succ]; rfl
    rw [hcons, ih, Nat.toNat_testBit, Nat.pow_zero, Nat.div_one, Nat.pow_succ', Nat.mod_mul]

namespace Machine

/-- R106: bits read make a value within their count. -/
theorem streamValue_lt (o : BitOrder) (bits : List Bool) : streamValue o bits < 2 ^ bits.length := by
  cases o with
  | msb => exact msbValue_lt bits
  | lsb => exact lsbValue_lt bits

/-- R108: bits written in an order and read in it give the value masked to their count. -/
theorem streamValue_streamBits (o : BitOrder) (w v : Nat) : streamValue o (streamBits o w v) = v % 2 ^ w := by
  cases o with
  | msb => exact msbValue_msbBits w v
  | lsb => exact lsbValue_lsbBits w v

/-! ## The bits of a reader -/

namespace BitReader

/-- R106: the bits of a byte, by their place in the stream. -/
theorem bitAt_eq (r : BitReader) (p : Nat) :
    r.bitAt p = (r.input.getD (p / 8) 0).toNat.testBit (bitPos r.order (p % 8)) := by
  unfold bitAt
  cases r.order <;> rfl

/-- R52, R106: the bits of the input are those at its places. -/
theorem bitsOf_input (r : BitReader) : bitsOf r.order r.input = (List.range (8 * r.input.length)).map r.bitAt := by
  obtain ⟨order, input, bitpos⟩ := r
  dsimp only
  induction input with
  | nil => rfl
  | cons byte bytes ih =>
    rw [bitsOf, List.flatMap_cons, ← bitsOf, ih, streamBits_eight, List.length_cons, Nat.mul_succ, Nat.add_comm, List.range_add,
      List.map_append, List.map_map]
    congr 1
    · refine List.map_congr_left fun k hk => ?_
      have hk := List.mem_range.1 hk
      rw [bitAt_eq, Nat.div_eq_of_lt hk, Nat.mod_eq_of_lt hk, List.getD_cons_zero]
    · refine List.map_congr_left fun k _ => ?_
      simp [bitAt_eq, Nat.add_div_left]

theorem bits_length (r : BitReader) : r.bits.length = r.remaining := by
  simp [bits, bitsOf_input, remaining]

theorem peek_eq_take (r : BitReader) (n : Nat) : r.peek n = r.bits.take n := by
  refine List.ext_getElem (by simp [bits_length]) fun k _ _ => ?_
  simp [peek, bits, bitsOf_input]

/-- R106: a read moves past the bits it takes. -/
theorem bits_advance (r : BitReader) (n : Nat) : { r with bitpos := r.bitpos + n }.bits = r.bits.drop n := by
  simp [bits]

end BitReader

/-! ## `BR_READ` -/

section

variable {s : State} {r : BitReader} {width : Nat} (hs : s.ready = true) (hr : s.br = some r) (hwidth : width ≤ 16)

include hs hr hwidth

theorem exec_brRead (hlen : width ≤ r.bits.length) :
    exec (.brRead width) s =
      .next { s.answered .bitReader .ok (.value (BitVec.ofNat 16 (streamValue r.order (r.bits.take width)))) with
        br := some { r with bitpos := r.bitpos + width } } := by
  have hok : widthOk width = true := decide_eq_true hwidth
  have hread : r.readBits width = some (streamValue r.order (r.bits.take width), { r with bitpos := r.bitpos + width }) := by
    rw [BitReader.readBits, if_neg (by rw [← BitReader.bits_length]; omega), BitReader.peek_eq_take]
  rw [exec, execBrRead, operation_ready hs]
  simp [hok, require, requireSession, hr, hread, State.finish, State.answered, State.popDraw, State.active_of_ready hs]

/-- R107: the reader is left as it is. -/
theorem exec_brRead_short (hlen : r.bits.length < width) :
    exec (.brRead width) s = .next (s.answered .bitReader .corruptBitstream .nothing) := by
  have hok : widthOk width = true := decide_eq_true hwidth
  have hread : r.readBits width = none := BitReader.readBits_none.2 (by rwa [← BitReader.bits_length])
  rw [exec, execBrRead, operation_ready hs]
  simp [hok, require, requireSession, hr, hread, State.popDraw_finish (State.active_of_ready hs)]

end

/-- Settles O8: the next bits are those the reader has left, where there are enough (`exec_brRead`, `exec_brRead_short`). -/
theorem brReadTakesTheNextBits : Obligations.BrReadTakesTheNextBits := by
  intro s width hs
  refine ⟨fun hwidth => ?_, fun hnone => ?_, fun r hr hwidth => ⟨fun hlen => ⟨exec_brRead hs hr hwidth hlen, ?_⟩, ?_⟩⟩
  · exact exec_invalidOperand hs rfl (decide_eq_false (Nat.not_le.2 hwidth))
  · rw [exec, execBrRead, operation_ready hs, State.popDraw_br, hnone, require_bind_noSession, State.complete_error,
      State.popDraw_raise_invalidOperand hs]
  · have hlt := streamValue_lt r.order (r.bits.take width)
    rwa [List.length_take, Nat.min_eq_left hlen] at hlt
  · exact exec_brRead_short hs hr hwidth

/-! ## The round trip -/

/-- R108: `BR_READ`s of the widths written move past the bits written. -/
theorem execAll_brRead {ws : List (Word16 × Nat)} {r : BitReader} {s : State} {bits : List Bool} (hws : ∀ w ∈ ws, w.2 ≤ 16)
    (hs : s.quiet = true) (hr : s.br = some r) (hbits : r.bits = writtenBits r.order ws ++ bits) (rest : List Instr) :
    ∃ t r', execAll (ws.map (fun w => .brRead w.2) ++ rest) s = execAll rest t ∧ t.quiet = true ∧ t.br = some r' ∧
      r'.order = r.order ∧ r'.bits = bits := by
  induction ws generalizing s r with
  | nil => exact ⟨s, r, rfl, hs, hr, rfl, hbits⟩
  | cons w ws ih =>
    obtain ⟨hw, hws⟩ := List.forall_mem_cons.1 hws
    rw [writtenBits_cons, List.append_assoc] at hbits
    have hread := exec_brRead (State.ready_of_quiet hs) hr hw (by rw [hbits]; simp)
    obtain ⟨t, r', ht, hrest⟩ := ih
      (s := { s.answered .bitReader .ok (.value _) with br := some { r with bitpos := r.bitpos + w.2 } }) hws
      (State.quiet_answered hs .bitReader .ok (.value (BitVec.ofNat 16 (streamValue r.order (r.bits.take w.2))))) rfl
      (by rw [BitReader.bits_advance, hbits, List.drop_left' (streamBits_length _ _ _)])
    refine ⟨t, r', ?_, hrest⟩
    rw [List.map_cons, List.cons_append, execAll_cons hread]
    exact ht

/-- R108: what the last of some `BR_READ`s gives, from a stream that begins with the bits of the same writes. -/
theorem execAll_brInit_brRead {u : State} {o : Nat} {order : BitOrder} {out : List Byte} {bits : List Bool}
    {ws : List (Word16 × Nat)} {w : Word16 × Nat} (hu : u.quiet = true) (ho : orderOf o = .ok order)
    (hws : ∀ w ∈ ws, w.2 ≤ 16) (hw : w.2 ≤ 16)
    (hout : bitsOf order out = writtenBits order ws ++ (streamBits order w.2 w.1.toNat ++ bits)) :
    ∃ v, execAll (.brInit o out :: (ws ++ [w]).map fun w => .brRead w.2) u = .next v ∧
      v.status.bitReader = some .ok ∧ v.result = .value (BitVec.ofNat 16 (w.1.toNat % 2 ^ w.2)) := by
  obtain ⟨t, r, ht, hq, hr, hord, hbits⟩ := execAll_brRead
    (s := { u.answered .bitReader .ok .nothing with br := some (BitReader.fresh order out) }) hws
    (State.quiet_answered hu .bitReader .ok .nothing) rfl (r := BitReader.fresh order out) hout [.brRead w.2]
  have hread := exec_brRead (State.ready_of_quiet hq) hr hw (by rw [hbits]; simp)
  rw [hbits, show r.order = order from hord, List.take_left' (streamBits_length _ _ _), streamValue_streamBits] at hread
  have hrun := (execAll_cons (exec_brInit (State.ready_of_quiet hu) ho out)).trans (ht.trans (execAll_cons hread))
  rw [List.map_append]
  exact ⟨_, hrun, rfl, rfl⟩

/-- Settles O9: the flushed bytes begin with the bits written (`execAll_bwInit_bwWrite`, `BitWriter.flush_packs`), and each
read takes the bits of its write (`execAll_brInit_brRead`). -/
theorem bitStreamRoundTrip : Obligations.BitStreamRoundTrip := by
  intro s o ws hs ho hws hcap
  obtain ⟨order, ho⟩ : ∃ order, orderOf o = .ok order := by
    obtain rfl | rfl := Nat.le_one_iff_eq_zero_or_eq_one.1 ho <;> exact ⟨_, rfl⟩
  obtain ⟨t, b, ht, hq, hp, hbw, hord, hwf, hbits⟩ := execAll_bwInit_bwWrite hs ho hws (by omega) [.bwFlush]
  obtain ⟨out, hflush, z, -, hout⟩ := BitWriter.flush_packs hwf (by rwa [hbits, writtenBits_length])
  rw [hord, hbits] at hout
  have hend := exec_bwFlush (State.ready_of_quiet hq) hbw (by rw [hp]; exact hflush)
  refine ⟨_, out, ht.trans (execAll_cons hend), rfl, rfl, fun k w hk u hu => ?_⟩
  obtain ⟨hlt, rfl⟩ := List.getElem?_eq_some_iff.1 hk
  have hsplit : writtenBits order ws = writtenBits order (ws.take k) ++
      (streamBits order ws[k].2 ws[k].1.toNat ++ writtenBits order (ws.drop (k + 1))) := by
    rw [← writtenBits_cons, ← List.drop_eq_getElem_cons hlt, ← writtenBits_append, List.take_append_drop]
  rw [hsplit, List.append_assoc, List.append_assoc] at hout
  rw [List.take_add_one, hk]
  exact execAll_brInit_brRead hu ho (fun x hx => hws x (List.mem_of_mem_take hx)) (hws _ (List.getElem_mem hlt)) hout

end Machine

end Sys2Proof
end

section
/-! O12 and O13. A row cut into runs: each pixel lengthens the run under way or begins one of the other colour
(`expand_cutRuns`, `cutRuns_getElem?`). A run split into makeup values and a remainder (`splitRun_eq`), each the run value of a row
of the colour's set (`makeupCode_mem`, `termCode_mem`). -/

namespace Sys2Proof

theorem Polarity.eq_flip_of_ne {p c : Polarity} (h : p ≠ c) : p = c.flip := by
  cases p <;> cases c <;> first | rfl | exact absurd rfl h

@[simp] theorem Polarity.flip_flip (c : Polarity) : c.flip.flip = c := by cases c <;> rfl

namespace Machine

/-! ## The runs of a row -/

/-- R24: the runs stand for the pixels of the run under way and those after them. -/
theorem expand_cutRuns (c : Polarity) (n : Nat) (px : List Polarity) :
    expand (cutRuns c n px) = List.replicate n c ++ px := by
  induction px generalizing c n with
  | nil => simp [cutRuns, expand]
  | cons p ps ih =>
    rw [cutRuns]
    split
    · next h => rw [ih, h, List.replicate_succ', List.append_assoc, List.singleton_append]
    · rw [expand, List.flatMap_cons, ← expand, ih, List.replicate_one, List.singleton_append]

/-- R132, R136: colours alternate from that of the run under way, the only run that can be empty. -/
theorem cutRuns_getElem? {c : Polarity} {n k : Nat} {px : List Polarity} {r : Polarity × Nat}
    (h : (cutRuns c n px)[k]? = some r) :
    r.1 = (if k % 2 = 0 then c else c.flip) ∧ (r.2 = 0 ↔ k = 0 ∧ n = 0 ∧ px.head? ≠ some c) := by
  induction px generalizing c n k with
  | nil =>
    obtain ⟨rfl, rfl⟩ : k = 0 ∧ (c, n) = r := by simpa [cutRuns, List.getElem?_singleton] using h
    simp
  | cons p ps ih =>
    rw [cutRuns] at h
    split at h
    · next hp =>
      obtain ⟨hcolour, hempty⟩ := ih h
      exact ⟨hcolour, by simp [hempty, hp]⟩
    · next hp =>
      cases k with
      | zero => cases h; simp [hp]
      | succ k =>
        obtain ⟨hcolour, hempty⟩ := ih h
        refine ⟨?_, by simp [hempty]⟩
        rw [hcolour, Polarity.eq_flip_of_ne hp, Polarity.flip_flip]
        split <;> split <;> first | rfl | omega

/-- Settles O12: the runs are cut from a white run of no pixels, which is the only empty one and stays so before black
(`expand_cutRuns`, `cutRuns_getElem?`). -/
theorem rowRunsAlternateFromWhite : Obligations.RowRunsAlternateFromWhite := by
  intro px
  cases px with
  | nil => exact ⟨rfl, fun k r h => by cases h⟩
  | cons p ps =>
    refine ⟨expand_cutRuns _ _ _, fun k r h => ?_⟩
    obtain ⟨hcolour, hempty⟩ := cutRuns_getElem? (c := .white) h
    refine ⟨hcolour, hempty.trans ?_⟩
    cases p <;> simp

/-! ## The codes of a run -/

/-- R133: a run below 2624 has at most one makeup value. -/
theorem splitRun_short {n : Nat} (h : n < 2624) :
    ∃ m, n = m + n % 64 ∧ m % 64 = 0 ∧ m ≤ 2560 ∧
      (if 64 ≤ n then ([n / 64 * 64], n % 64) else ([], n)) = (if m = 0 then [] else [m], n % 64) := by
  refine ⟨n / 64 * 64, by omega, by omega, by omega, ?_⟩
  split
  · rw [if_neg (by omega)]
  · rw [if_pos (by omega), Nat.mod_eq_of_lt (by omega)]

/-- R133: the makeup values of a run and its remainder; the bound on the fuel is that of `runCodes`. -/
theorem splitRun_eq {fuel n : Nat} (h : n < 2560 * fuel + 2624) :
    ∃ k m t, n = 2560 * k + m + t ∧ t < 64 ∧ m % 64 = 0 ∧ m ≤ 2560 ∧ (0 < k → 64 ≤ m) ∧
      splitRun fuel n = (List.replicate k 2560 ++ (if m = 0 then [] else [m]), t) := by
  induction fuel generalizing n with
  | zero =>
    obtain ⟨m, hn, hm, hmax, hsplit⟩ := splitRun_short h
    exact ⟨0, m, n % 64, by omega, by omega, hm, hmax, by omega, hsplit⟩
  | succ fuel ih =>
    rw [splitRun]
    split
    · obtain ⟨k, m, t, hn, ht, hm, hmax, hpos, hsplit⟩ := ih (n := n - 2560) (by omega)
      exact ⟨k + 1, m, t, by omega, ht, hm, hmax, by omega, by rw [hsplit]; rfl⟩
    · obtain ⟨m, hn, hm, hmax, hsplit⟩ := splitRun_short (n := n) (by omega)
      exact ⟨0, m, n % 64, by omega, by omega, hm, hmax, by omega, hsplit⟩

/-- R133: the codes of a run are those of its makeup values and of its remainder. -/
theorem runCodes_eq (c : Polarity) (n : Nat) :
    ∃ k m t, n = 2560 * k + m + t ∧ t < 64 ∧ m % 64 = 0 ∧ m ≤ 2560 ∧ (0 < k → 64 ≤ m) ∧
      runCodes c n = List.replicate k (makeupCode c 2560) ++ (if m = 0 then [] else [makeupCode c m]) ++ [termCode c t] := by
  obtain ⟨k, m, t, hn, ht, hm, hmax, hpos, hsplit⟩ := splitRun_eq (fuel := n / 2560) (n := n) (by omega)
  refine ⟨k, m, t, hn, ht, hm, hmax, hpos, ?_⟩
  simp only [runCodes, hsplit, List.map_append, List.map_replicate]
  split <;> rfl

/-- R134, R82 to R84: the rows of the makeup values, which count in 64s. -/
theorem makeupCode_rows : ∀ c, ∀ j < 40,
    makeupCode c (64 * (j + 1)) ∈ codeSet c ∧ (makeupCode c (64 * (j + 1))).runValue = 64 * (j + 1) ∧
      (makeupCode c (64 * (j + 1))).cls =
        if 1792 ≤ 64 * (j + 1) then .extension else if c = .white then .makeupWhite else .makeupBlack := by
  intro c
  cases c <;> decide +kernel

theorem makeupCode_mem (c : Polarity) {m : Nat} (hm : m % 64 = 0) (hmin : 64 ≤ m) (hmax : m ≤ 2560) :
    makeupCode c m ∈ codeSet c ∧ (makeupCode c m).runValue = m ∧
      (makeupCode c m).cls = if 1792 ≤ m then .extension else if c = .white then .makeupWhite else .makeupBlack := by
  obtain ⟨j, rfl⟩ : ∃ j, m = 64 * (j + 1) := ⟨m / 64 - 1, by omega⟩
  exact makeupCode_rows c j (by omega)

/-- R134, R80, R81: the rows of the remainders. -/
theorem termCode_mem : ∀ c, ∀ t < 64,
    termCode c t ∈ codeSet c ∧ (termCode c t).runValue = t ∧
      (termCode c t).cls = if c = .white then .terminatingWhite else .terminatingBlack := by
  intro c
  cases c <;> decide +kernel

/-- Settles O13: the run is split (`runCodes_eq`) into run values that each have a row of the set (`makeupCode_mem`,
`termCode_mem`). -/
theorem oneRunIsMakeupsAndOneTerminatingCode : Obligations.OneRunIsMakeupsAndOneTerminatingCode := by
  intro c n
  obtain ⟨k, m, t, hn, ht, hm, hmax, hpos, hcodes⟩ := runCodes_eq c n
  exact ⟨k, m, t, hn, ht, hm, hmax, hpos, hcodes, fun m' => makeupCode_mem c, termCode_mem c t ht⟩

end Machine

end Sys2Proof
end

section
/-! O10, O11 and O14. Each operation of the encoder is one write of bits, which fits (`BitWriter.putBits_appends`) or does not
(`BitWriter.putBits_full`); where it does not, and at a row of another length, the session closes. -/

namespace Sys2Proof.Machine

/-- R62, R103: a write and a flush whose bytes do not fit, a whole one or the padded one. -/
theorem BitWriter.putBits_flush_full {p : Params} {b : BitWriter} (hb : b.wf p = true) {xs : List Bool}
    (hcap : p.outCapacity < (b.bits.length + xs.length + 7) / 8) :
    (b.putBits p.outCapacity xs >>= flush p.outCapacity) = .error .allocationFailure := by
  cases hw : b.putBits p.outCapacity xs with
  | error e => rw [putBits_error hw]; rfl
  | ok b' =>
    obtain ⟨hb', -⟩ := putBits_wf hb hw
    exact flush_full hb' (by rwa [putBits_bits hb hw, List.length_append])

section

variable {s : State} (hs : s.ready = true)

include hs

/-! ## Sessions -/

theorem exec_hufDecBegin {columns : Nat} (hc : columnsOk columns = true) (input : List Byte) :
    exec (.hufDecBegin input columns) s =
      .next { s.answered .hufDec .ok .nothing with hufDec := some (HufDec.fresh input columns) } := by
  rw [exec, execHufDecBegin, operation_ready hs]
  simp [require, hc, State.openSession, State.finish, State.answered, State.popDraw, State.active_of_ready hs]

/-- R285: an error of the encoder other than InvalidOperand closes its session. -/
theorem State.popDraw_raise_hufEnc {e : ErrorKind} (he : e ≠ .invalidOperand) :
    s.popDraw.raise .hufEnc e = { s.answered .hufEnc e.status .nothing with hufEnc := none } := by
  rw [State.raise_of_ne _ _ _ he]
  simp [State.close, State.finish, State.answered, State.popDraw, State.active_of_ready hs]

/-! ## Operations that end in an error -/

/-- R312: a scanline with no session is refused, whether or not its runs are run-model values. -/
theorem exec_hufEncLine_noSession (hnone : s.hufEnc = none) (line : Line) :
    exec (.hufEncLine line) s = .next (s.answered .hufEnc .invalidOperand .nothing) := by
  rw [exec, execHufEncLine, operation_ready hs, State.popDraw_hufEnc, hnone, require_bind_noSession, State.complete_error,
    State.popDraw_raise_invalidOperand hs]

theorem exec_hufEncEnd_noSession (hnone : s.hufEnc = none) :
    exec .hufEncEnd s = .next (s.answered .hufEnc .invalidOperand .nothing) := by
  rw [exec, execHufEncEnd, operation_ready hs]
  simp [requireSession, hnone, State.popDraw_raise_invalidOperand hs]

variable {h : HufEnc} (hh : s.hufEnc = some h)

include hh

/-- R131: a scanline of another length. -/
theorem exec_hufEncLine_mismatch {line : Line} (hok : line.ok = true) (hlen : (linePixels line).length ≠ h.columns) :
    exec (.hufEncLine line) s = .next { s.answered .hufEnc .pixelCountMismatch .nothing with hufEnc := none } := by
  have hraise := State.popDraw_raise_hufEnc hs (e := .pixelCountMismatch) (by decide)
  rw [exec, execHufEncLine, operation_ready hs]
  simp [require, requireSession, hok, hh, hlen, hraise, ErrorKind.status]

variable (ho : h.bw.order = .msb)

include ho

/-- R62: a scanline whose whole bytes do not fit. -/
theorem exec_hufEncLine_full {line : Line} (hok : line.ok = true) (hlen : (linePixels line).length = h.columns)
    (hw : h.bw.putBits s.params.outCapacity (lineBits (linePixels line)) = .error .allocationFailure) :
    exec (.hufEncLine line) s = .next { s.answered .hufEnc .allocationFailure .nothing with hufEnc := none } := by
  have hraise := State.popDraw_raise_hufEnc hs (e := .allocationFailure) (by decide)
  rw [exec, execHufEncLine, operation_ready hs]
  simp [require, requireSession, hok, hh, hlen, HufEnc.encodeLine_eq ho, hw, Except.map, hraise, ErrorKind.status]

/-- R62: a page whose bytes do not fit, at a whole byte of the missing EOLs or at the padded one. -/
theorem exec_hufEncEnd_full
    (hw : (h.bw.putBits s.params.outCapacity (codeBits (List.replicate (6 - h.trailingEols) eolEntry)) >>=
      BitWriter.flush s.params.outCapacity) = .error .allocationFailure) :
    exec .hufEncEnd s = .next { s.answered .hufEnc .allocationFailure .nothing with hufEnc := none } := by
  have hraise := State.popDraw_raise_hufEnc hs (e := .allocationFailure) (by decide)
  rw [exec, execHufEncEnd, operation_ready hs]
  cases hp : h.bw.putBits s.params.outCapacity (codeBits (List.replicate (6 - h.trailingEols) eolEntry)) with
  | ok bw =>
    rw [hp, ok_bind] at hw
    simp [requireSession, hh, hufRtcEols, HufEnc.pad_eq ho, hp, Except.map, hw, hraise, ErrorKind.status]
  | error e =>
    rw [hp] at hw
    cases hw
    simp [requireSession, hh, hufRtcEols, HufEnc.pad_eq ho, hp, Except.map, hraise, ErrorKind.status]

end

/-! ## The statements -/

/-- Settles O10: the columns are checked, and in their range each unit opens its own fresh context (`exec_hufEncBegin`,
`exec_hufDecBegin`). -/
theorem huffmanSessionsOpenFresh : Obligations.HuffmanSessionsOpenFresh := by
  intro s columns input hs
  refine ⟨fun ⟨hmin, hmax⟩ => ?_, fun hbad => ?_⟩
  · have hc : columnsOk columns = true := by simp [columnsOk, maxColumns, hmin, hmax]
    exact ⟨exec_hufEncBegin hs hc, exec_hufDecBegin hs hc input⟩
  · have hc : columnsOk columns = false := by
      obtain rfl | hmax := hbad
      · rfl
      · exact Bool.and_eq_false_iff.2 (.inr (decide_eq_false (Nat.not_le.2 hmax)))
    exact ⟨exec_invalidOperand hs rfl hc, exec_invalidOperand hs rfl hc⟩

/-- Settles O11: the checks in their order, then one write of the bits of the scanline (`exec_hufEncLine`,
`exec_hufEncLine_full`). -/
theorem hufEncLineAppendsTheRunCodesAndEol : Obligations.HufEncLineAppendsTheRunCodesAndEol := by
  intro s line hs
  refine ⟨fun hnone => exec_hufEncLine_noSession hs hnone line, fun hbad => exec_invalidOperand hs rfl hbad,
    fun h hh hwf hok => ⟨exec_hufEncLine_mismatch hs hh hok, fun hlen => ?_⟩⟩
  obtain ⟨-, ho, hbw, -⟩ := HufEnc.wf_iff.1 hwf
  rw [List.length_append]
  refine ⟨fun hcap => ?_, fun hcap => exec_hufEncLine_full hs hh ho hok hlen (BitWriter.putBits_full hbw hcap)⟩
  obtain ⟨bw, hw, hord, hbw', hbits⟩ := BitWriter.putBits_appends hbw hcap
  exact ⟨bw, exec_hufEncLine hs hh ho hok hlen hw, hord.trans ho, hbw', hbits⟩

/-- Settles O14: the missing EOLs are written and the bits flushed where they fit (`exec_hufEncEnd`); where they do not, one
of the two fails (`BitWriter.putBits_flush_full`, `exec_hufEncEnd_full`). -/
theorem hufEncEndCompletesSixEols : Obligations.HufEncEndCompletesSixEols := by
  intro s hs
  refine ⟨exec_hufEncEnd_noSession hs, ?_⟩
  rintro h hh hwf _ rfl
  obtain ⟨-, ho, hbw, -⟩ := HufEnc.wf_iff.1 hwf
  rw [List.length_append]
  refine ⟨fun hcap => ?_, fun hcap => exec_hufEncEnd_full hs hh ho ?_⟩
  · obtain ⟨bw, hw, hord, hbw', hbits⟩ := BitWriter.putBits_appends hbw
      (xs := codeBits (List.replicate (6 - h.trailingEols) eolEntry)) (by omega)
    obtain ⟨out, hflush, hpacks⟩ := BitWriter.flush_packs hbw' (by rwa [hbits, List.length_append])
    rw [hbits, hord, ho] at hpacks
    exact ⟨out, exec_hufEncEnd hs hh ho hw hflush, hpacks⟩
  · exact BitWriter.putBits_flush_full hbw hcap

end Sys2Proof.Machine
end

section
/-! What the Huffman decoder reads: the row whose code word stands at the front of the bits left, and none where no row's does
(`decodeEntry_eq_ok_iff`); the turns inside a scanline are stated in these terms. -/

namespace Sys2Proof

open Sys2Proof.Machine

/-! ## Code words in a bit string -/

/-- R143: the row that is found has the bits read for its code word, from any bit on. -/
theorem matchCode_prefix {c : Polarity} {fuel : Nat} {read left : List Bool} {e : Entry}
    (h : matchCode c fuel read.length (msbValue read) left = .ok e) : e ∈ codeSet c ∧ e.bits <+: read ++ left := by
  induction left generalizing read fuel with
  | nil => cases fuel <;> cases h
  | cons b left ih =>
    cases fuel with
    | zero => cases h
    | succ fuel =>
      have hlen : read.length + 1 = (read ++ [b]).length := by simp
      rw [matchCode, ← msbValue_concat, hlen] at h
      rw [List.append_cons]
      cases hx : lookupCode c (read ++ [b]).length (msbValue (read ++ [b])) with
      | some x =>
        rw [hx] at h
        cases h
        obtain ⟨he, hbits⟩ := lookupCode_eq_some_iff.1 hx
        exact ⟨he, hbits ▸ List.prefix_append _ _⟩
      | none =>
        rw [hx] at h
        exact ih h

/-- R143, R76: the decoder reads exactly the code word that stands at the front. -/
theorem decodeEntry_eq_ok_iff {c : Polarity} {bits : List Bool} {e : Entry} :
    decodeEntry c bits = .ok e ↔ e ∈ codeSet c ∧ e.bits <+: bits := by
  refine ⟨fun h => matchCode_prefix (read := []) h, ?_⟩
  rintro ⟨he, rest, rfl⟩
  exact decodeEntry_bits he rest

/-- R77: every code word has a bit that is not 0. -/
theorem true_mem_bits : ∀ c, ∀ e ∈ codeSet c, true ∈ e.bits := by
  intro c
  cases c <;> decide +kernel

namespace Machine

/-- R146: the test for a padding tail. -/
theorem BitReader.paddingTail_iff {r : BitReader} : r.paddingTail = true ↔ padding r.bits := by
  rw [paddingTail, peek_eq_take, ← bits_length, Bool.and_eq_true, decide_eq_true_iff]
  refine and_congr_right fun hlt => ?_
  rw [List.take_of_length_le (Nat.le_of_lt hlt)]
  simp

/-- R146: bits that hold a code word are no padding tail. -/
theorem not_padding_of_mem {c : Polarity} {e : Entry} (he : e ∈ codeSet c) {xs ys : List Bool} :
    ¬ padding (xs ++ e.bits ++ ys) := fun ⟨_, hzero⟩ =>
  absurd (hzero true (by simp [true_mem_bits c e he])) (by decide)

/-! ## The context past code words -/

/-- R143: the decoder context past some code words. -/
def HufDec.past (d : HufDec) (codes : List Entry) : HufDec :=
  { d with
    br := { d.br with bitpos := d.br.bitpos + (codeBits codes).length }
    sbCode := (codes.getLast?.map Entry.code).getD d.sbCode
    sbLen := (codes.getLast?.map Entry.bitLength).getD d.sbLen }

namespace HufDec

variable {d : HufDec} {e : Entry}

@[simp] theorem past_columns (codes : List Entry) : (d.past codes).columns = d.columns := rfl
@[simp] theorem past_color (codes : List Entry) : (d.past codes).color = d.color := rfl
@[simp] theorem past_pending (codes : List Entry) : (d.past codes).pending = d.pending := rfl
@[simp] theorem past_row (codes : List Entry) : (d.past codes).row = d.row := rfl

theorem past_append (codes codes' : List Entry) : d.past (codes ++ codes') = (d.past codes).past codes' := by
  simp only [past, codeBits_append, List.length_append, Nat.add_assoc, List.getLast?_append]
  cases codes'.getLast? <;> rfl

theorem past_cons (m : Entry) (codes : List Entry) : d.past (m :: codes) = (d.past [m]).past codes := past_append [m] codes

/-- R106: the bits left past code words that stand at the front. -/
theorem past_bits {codes : List Entry} {rest : List Bool} (h : d.br.bits = codeBits codes ++ rest) :
    (d.past codes).br.bits = rest := by
  rw [past, BitReader.bits_advance, h, List.drop_left]

/-- R143: `ReadCode` reads the code word at the front. -/
theorem readCode_of_prefix (he : e ∈ codeSet d.color) (h : e.bits <+: d.br.bits) : d.readCode = .ok (e, d.past [e]) := by
  have hpeek : e.bits <+: d.br.peek hufMaxCodeLen := by
    obtain ⟨-, hmax⟩ := bitLength_bounds _ e he
    have hlen : e.bits.length ≤ hufMaxCodeLen := e.bits_length ▸ hmax.trans (by split <;> decide)
    rw [BitReader.peek_eq_take]
    exact List.prefix_take_iff.2 ⟨h, hlen⟩
  rw [readCode, decodeEntry_eq_ok_iff.2 ⟨he, hpeek⟩]
  simp [past, codeBits]

/-- R143, R145: `ReadCode` at bits that begin with no code word. -/
theorem readCode_of_no_prefix (h : ∀ e ∈ codeSet d.color, ¬ e.bits <+: d.br.bits) :
    d.readCode = .error .corruptBitstream := by
  unfold readCode
  split
  · next e he =>
    obtain ⟨hmem, hpre⟩ := decodeEntry_eq_ok_iff.1 he
    rw [BitReader.peek_eq_take] at hpre
    exact absurd (hpre.trans (List.take_prefix _ _)) (h e hmem)
  · rfl

end HufDec

/-! ## The turns inside a scanline -/

namespace HufRun

variable {d : HufDec} {mode : HufMode} {first : Bool} {e : Entry}

/-- R149: a full row at a padding tail. -/
theorem turn_fullRow (hfull : d.row.length = d.columns) (hpad : padding d.br.bits) :
    turn ⟨d, mode, .code first⟩ = .stop (endLine ⟨d, mode, .code first⟩ (.row d.row)) :=
  if_pos ⟨hfull, BitReader.paddingTail_iff.2 hpad⟩

variable (h : ¬ (d.row.length = d.columns ∧ padding d.br.bits))

include h

/-- R143: the code word at the front is the token of the turn. -/
theorem turn_of_prefix (he : e ∈ codeSet d.color) (hpre : e.bits <+: d.br.bits) :
    turn ⟨d, mode, .code first⟩ = .token e ⟨d.past [e], mode, .code first⟩ := by
  rw [← BitReader.paddingTail_iff] at h
  simp only [turn, if_neg h, HufDec.readCode_of_prefix he hpre]

/-- R145: bits that begin with no code word end the operation. -/
theorem turn_of_no_prefix (hnone : ∀ e ∈ codeSet d.color, ¬ e.bits <+: d.br.bits) :
    turn ⟨d, mode, .code first⟩ = .stop (.raised .corruptBitstream) := by
  rw [← BitReader.paddingTail_iff] at h
  simp only [turn, if_neg h, HufDec.readCode_of_no_prefix hnone]

end HufRun

end Machine

end Sys2Proof
end

section
/-! O21 to O24. What each class of code word does to the scanline (`HufRun.accept_terminating` to `HufRun.accept_eol_padded`), and
what the state becomes. -/

namespace Sys2Proof.Machine

/-! ## The classes of code words -/

namespace HufRun

variable {r : HufRun} {first : Bool} {e : Entry}

/-- R142, R149: after a full row only EOL is accepted. -/
theorem accept_fullRow (hfull : r.dec.row.length = r.dec.columns) (he : e.cls ≠ .eol) :
    r.accept first e = .raised .corruptBitstream := by
  rw [accept, if_pos hfull, if_neg he]

theorem accept_eol_fullRow (hfull : r.dec.row.length = r.dec.columns) (he : e.cls = .eol) :
    r.accept first e = r.endLine (.row r.dec.row) := by
  rw [accept, if_pos hfull, if_pos he]

variable (hlt : r.dec.row.length < r.dec.columns)

include hlt

/-- R144: a terminating code closes the run. -/
theorem accept_terminating (he : e.cls = .terminatingWhite ∨ e.cls = .terminatingBlack) :
    r.accept first e = Progress.ofExcept (fun d => .more ⟨d, r.mode, .code false⟩) (r.dec.closeRun e) := by
  rw [accept, if_neg (Nat.ne_of_lt hlt)]
  obtain he | he := he <;> rw [he]

/-- R147: a makeup or Extension code adds to the run. -/
theorem accept_makeup (he : e.cls = .makeupWhite ∨ e.cls = .makeupBlack ∨ e.cls = .extension) :
    r.accept first e = Progress.ofExcept (fun d => .more ⟨d, r.mode, .code false⟩) (r.dec.addMakeup e) := by
  rw [accept, if_neg (Nat.ne_of_lt hlt)]
  obtain he | he | he := he <;> rw [he]

/-- R148: EOL before the row is full. -/
theorem accept_eol (he : e.cls = .eol) :
    r.accept first e =
      if r.dec.pendingValid then .raised .corruptBitstream
      else if first then r.endLine .eolOnly else r.endLine (.row r.dec.paddedRow) := by
  rw [accept, if_neg (Nat.ne_of_lt hlt), he]

end HufRun

namespace HufDec

variable (d : HufDec)

/-- R144: the context after the run of the current colour is closed, `n` pixels longer than the pending total. -/
def closed (n : Nat) : HufDec :=
  { d with
    row := d.row ++ List.replicate (d.pending + n) d.color, color := d.color.flip, pending := 0, pendingValid := false }

/-- R147: the context after `n` pixels join the pending run. -/
def grown (n : Nat) : HufDec := { d with pending := d.pending + n, pendingValid := true }

variable {d} {e : Entry}

theorem closeRun_fits (h : d.row.length + d.pending + e.runValue ≤ d.columns) : d.closeRun e = .ok (d.closed e.runValue) :=
  if_neg (by omega)

theorem closeRun_tooLong (h : d.columns < d.row.length + d.pending + e.runValue) : d.closeRun e = .error .corruptBitstream :=
  if_pos (by omega)

theorem addMakeup_fits (h : d.row.length + d.pending + e.runValue ≤ d.columns) : d.addMakeup e = .ok (d.grown e.runValue) :=
  if_neg (by omega)

theorem addMakeup_tooLong (h : d.columns < d.row.length + d.pending + e.runValue) :
    d.addMakeup e = .error .corruptBitstream := if_pos (by omega)

end HufDec

/-! ## A code word as an instruction -/

/-- R285: an error of the Huffman decoder other than InvalidOperand ends the operation and closes the session. -/
theorem settleHuf_raised (s : State) {e : ErrorKind} (he : e ≠ .invalidOperand) :
    settleHuf s (.raised e) = .next { s.ended .hufDec e.status .nothing with hufDec := none } := by
  rw [settleHuf, State.raise_of_ne _ _ _ he]
  rfl

section

variable {s : State} {i : Instr} {e : Entry} {d : HufDec} {mode : HufMode} {first : Bool} (hi : codeEntry i = some e)
  (ha : s.active = some (.hufDec mode (.code first))) (hd : s.hufDec = some d)

include hi ha hd

/-- R141: a code word of a class of the colour's set is accepted. -/
theorem exec_codeWord (hset : e.cls.inSet d.color = true) :
    exec i s = settleHuf s (HufRun.accept ⟨d, mode, .code first⟩ first e) := by
  rw [exec_code hi, acceptCode_read ha hd hset]

theorem exec_codeWord_fullRow (hfull : d.row.length = d.columns) (he : e ∈ codeSet d.color) (hne : e.cls ≠ .eol) :
    exec i s = .next { s.ended .hufDec .corruptBitstream .nothing with hufDec := none } := by
  rw [exec_codeWord hi ha hd (inSet_of_mem_codeSet _ e he), HufRun.accept_fullRow hfull hne, settleHuf_raised s (by decide)]
  rfl

end

/-- Settles O21: the class is one of the colour's set, and the run is closed (`HufRun.accept_terminating`) if it fits. -/
theorem terminatingCodesCloseTheRun : Obligations.TerminatingCodesCloseTheRun := by
  intro s i e d mode first hi hcls ha hd hlt
  have hset : e.cls.inSet d.color = true := by rw [hcls]; cases d.color <;> rfl
  have hterm : e.cls = .terminatingWhite ∨ e.cls = .terminatingBlack := by rw [hcls]; cases d.color <;> simp
  have hflip : d.color.flip = if d.color = .white then .black else .white := by cases d.color <;> rfl
  rw [exec_codeWord hi ha hd hset, HufRun.accept_terminating hlt hterm]
  refine ⟨fun hfits => ?_, fun hlong => ?_⟩
  · rw [HufDec.closeRun_fits hfits, ← hflip]
    rfl
  · rw [HufDec.closeRun_tooLong hlong]
    exact settleHuf_raised s (by decide)

/-- Settles O22: the class is one of the colour's set, and the pending run grows (`HufRun.accept_makeup`) if it fits. -/
theorem makeupCodesAccumulate : Obligations.MakeupCodesAccumulate := by
  intro s i e d mode first hi hcls ha hd hlt
  have hset : e.cls.inSet d.color = true := by obtain h | h := hcls <;> rw [h] <;> cases d.color <;> rfl
  have hmakeup : e.cls = .makeupWhite ∨ e.cls = .makeupBlack ∨ e.cls = .extension := by
    obtain h | h := hcls <;> rw [h]
    · simp
    · cases d.color <;> simp
  rw [exec_codeWord hi ha hd hset, HufRun.accept_makeup hlt hmakeup]
  refine ⟨fun hfits => ?_, fun hlong => ?_⟩
  · rw [HufDec.addMakeup_fits hfits]
    rfl
  · rw [HufDec.addMakeup_tooLong hlong]
    exact settleHuf_raised s (by decide)

/-! ## EOL -/

section

variable {s : State} {d : HufDec} {mode : HufMode} {first : Bool} (ha : s.active = some (.hufDec mode (.code first)))
  (hd : s.hufDec = some d)

include ha hd

/-- R85: EOL is in both sets. -/
theorem exec_eol : exec .eol s = settleHuf s (HufRun.accept ⟨d, mode, .code first⟩ first eolEntry) :=
  exec_codeWord rfl ha hd rfl

/-- R142: EOL after a full row ends it. -/
theorem exec_eol_fullRow (hfull : d.row.length = d.columns) :
    exec .eol s = settleHuf s (HufRun.endLine ⟨d, mode, .code first⟩ (.row d.row)) := by
  rw [exec_eol ha hd, HufRun.accept_eol_fullRow hfull rfl]

variable (hlt : d.row.length < d.columns)

include hlt

/-- R148: EOL with makeup pending. -/
theorem exec_eol_pending (hp : d.pendingValid = true) :
    exec .eol s = .next { s.ended .hufDec .corruptBitstream .nothing with hufDec := none } := by
  rw [exec_eol ha hd, HufRun.accept_eol hlt rfl, if_pos hp]
  exact settleHuf_raised s (by decide)

variable (hp : d.pendingValid = false)

include hp

/-- R142: EOL as the first code word of a scanline. -/
theorem exec_eol_first (hfirst : first = true) :
    exec .eol s = settleHuf s (HufRun.endLine ⟨d, mode, .code first⟩ .eolOnly) := by
  rw [exec_eol ha hd, HufRun.accept_eol hlt rfl, if_neg (by simp [hp]), if_pos hfirst]

/-- R148: EOL after a row that is not full. -/
theorem exec_eol_padded (hfirst : first = false) :
    exec .eol s = settleHuf s (HufRun.endLine ⟨d, mode, .code first⟩ (.row d.paddedRow)) := by
  rw [exec_eol ha hd, HufRun.accept_eol hlt rfl, if_neg (by simp [hp]), if_neg (by simp [hfirst])]

end

/-- The ends of `HUF_DEC_LINE` leave the session as it is. -/
theorem settleHuf_line {s : State} {d : HufDec} (hd : s.hufDec = some d) (phase : HufPhase) (st : Status) (res : Result) :
    settleHuf s (.done ⟨d, .line, phase⟩ st res) = .next (s.ended .hufDec st res) := by
  rw [settleHuf, ← hd]
  rfl

namespace HufRun

variable {d : HufDec} {rows : Nat} (phase : HufPhase)

/-- R150, R151: a scanline of a page that is a row. -/
theorem endLine_page_row (px : List Polarity) :
    endLine ⟨d, .page rows, phase⟩ (.row px) = .more ⟨d.withRow px, .page rows, .head⟩ := rfl

/-- R151: an EOL-only scanline of a page is held. -/
theorem endLine_page_held (h : d.held < 2) :
    endLine ⟨d, .page rows, phase⟩ .eolOnly = .more ⟨{ d with held := d.held + 1 }, .page rows, .head⟩ :=
  if_neg (by show ¬ d.held + 1 = 3; omega)

/-- R152: the third EOL-only scanline in a row ends the page. -/
theorem endLine_page_third (h : d.held = 2) :
    endLine ⟨d, .page rows, phase⟩ .eolOnly = .done ⟨d, .page rows, phase⟩ .okEarlyEnd (.rows d.rowsOut) :=
  if_pos (by show d.held + 1 = 3; omega)

end HufRun

/-- Settles O23: what EOL comes to in each state of the scanline (`exec_eol_fullRow` to `exec_eol_padded`) ends the
operation. -/
theorem eolEndsALine : Obligations.EolEndsALine := by
  intro s d first ha hd
  refine ⟨fun hfull => ⟨?_, fun i e hi he hne => exec_codeWord_fullRow hi ha hd hfull he hne⟩,
    fun hlt hp => exec_eol_pending ha hd hlt hp, fun hlt hp hfirst => ?_, fun hlt hp hfirst => ?_⟩
  · rw [exec_eol_fullRow ha hd hfull]
    exact settleHuf_line hd _ _ _
  · rw [exec_eol_first ha hd hlt hp hfirst]
    exact settleHuf_line hd _ _ _
  · rw [exec_eol_padded ha hd hlt hp hfirst]
    exact settleHuf_line hd _ _ _

/-- Settles O24: what EOL comes to in each state of the scanline (`exec_eol_fullRow` to `exec_eol_padded`) is a row for the page, a
held scanline, or its early end. -/
theorem eolInsideAPage : Obligations.EolInsideAPage := by
  intro s d rows first ha hd
  refine ⟨?_, fun hfull i e hi he hne => exec_codeWord_fullRow hi ha hd hfull he hne,
    fun hlt hp => exec_eol_pending ha hd hlt hp, fun hlt hp hfirst hheld => ?_, fun hlt hp hfirst hheld => ?_⟩
  · rintro row (⟨hfull, rfl⟩ | ⟨hlt, hp, hfirst, rfl⟩)
    · rw [exec_eol_fullRow ha hd hfull, HufRun.endLine_page_row]
      rfl
    · rw [exec_eol_padded ha hd hlt hp hfirst, HufRun.endLine_page_row]
      rfl
  · rw [exec_eol_first ha hd hlt hp hfirst, HufRun.endLine_page_held _ hheld]
    rfl
  · rw [exec_eol_first ha hd hlt hp hfirst, HufRun.endLine_page_third _ hheld]
    rfl

end Sys2Proof.Machine
end

section
/-! O16 and O17. An operation of the Huffman decoder is what its turns come to (`HufRun.outcome`), whatever bound they have; the
turns over the run codes of a row leave the row (`HufRun.outcome_rowCodes`), so a whole scanline is one equation for each of its
ends (`HufRun.outcome_line` to `HufRun.outcome_noCode`), in `HUF_DEC_LINE` and in `HUF_DEC_PAGE`. -/

namespace Sys2Proof.Machine

/-! ## What the turns come to -/

/-- A loop with turns enough comes to the same for every bound (R331). -/
theorem runLoop_fuel {α : Type} {turn : α → Progress α} {μ : α → Nat} (hμ : ∀ c c', turn c = .more c' → μ c' < μ c)
    {fuel fuel' : Nat} {c : α} (h : μ c < fuel) (h' : μ c < fuel') : runLoop turn fuel c = runLoop turn fuel' c := by
  induction fuel generalizing fuel' c with
  | zero => omega
  | succ n ih =>
    obtain ⟨m, rfl⟩ := Nat.exists_eq_add_of_le' (show 1 ≤ fuel' by omega)
    cases ht : turn c with
    | more c' =>
      have hlt := hμ c c' ht
      rw [runLoop_more ht, runLoop_more ht]
      exact ih (by omega) (by omega)
    | done c' st r => rw [runLoop_done ht, runLoop_done ht]
    | raised e => rw [runLoop_raised ht, runLoop_raised ht]
    | stuck f => simp only [runLoop, ht]

namespace HufRun

/-- What the turns of the decoder come to from a place in its operation on. -/
def outcome (r : HufRun) : Progress HufRun := runLoop advance (r.measure + 1) r

end HufRun

/-- What the turns come to after one of them. -/
def Progress.resumed : Progress HufRun → Progress HufRun
  | .more r => r.outcome
  | p => p

namespace HufRun

theorem outcome_of_advance {r : HufRun} {p : Progress HufRun} (h : r.advance = p) : r.outcome = p.resumed := by
  subst h
  cases h : r.advance with
  | more r' =>
    have hlt := advance_more h
    rw [outcome, runLoop_more h]
    exact runLoop_fuel (fun _ _ => advance_more) hlt (Nat.lt_succ_self _)
  | done r' st res => exact runLoop_done h
  | raised e => exact runLoop_raised h
  | stuck f => simp only [outcome, runLoop, h, Progress.resumed]

end HufRun

/-- R331: the bound on the turns of an operation is never met. -/
theorem HufDec.run_eq_outcome (d : HufDec) (mode : HufMode) : d.run mode = (⟨d, mode, .head⟩ : HufRun).outcome := by
  refine runLoop_fuel (fun _ _ => HufRun.advance_more) ?_ (Nat.lt_succ_self _)
  simp only [HufRun.measure, HufDec.fuel]
  split <;> omega

/-! ## The turns over the run codes of a row -/

/-- R133: the codes of a run are makeup codes and one terminating code of its colour's set, whose run values sum up to it. -/
theorem runCodes_rows (c : Polarity) (n : Nat) :
    ∃ makeups t, runCodes c n = makeups ++ [t] ∧
      (∀ e ∈ makeups, e ∈ codeSet c ∧ (e.cls = .makeupWhite ∨ e.cls = .makeupBlack ∨ e.cls = .extension)) ∧
      t ∈ codeSet c ∧ (t.cls = .terminatingWhite ∨ t.cls = .terminatingBlack) ∧
      (makeups.map Entry.runValue).sum + t.runValue = n := by
  obtain ⟨k, m, t, hn, ht, hm, hmax, -, hcodes⟩ := runCodes_eq c n
  obtain ⟨htset, htvalue, htcls⟩ := termCode_mem c t ht
  refine ⟨_, _, hcodes, fun e he => ?_, htset, by rw [htcls]; cases c <;> simp, ?_⟩
  · obtain ⟨m', rfl, hm', hmin', hmax'⟩ : ∃ m', e = makeupCode c m' ∧ m' % 64 = 0 ∧ 64 ≤ m' ∧ m' ≤ 2560 := by
      obtain he | he := List.mem_append.1 he
      · exact ⟨2560, List.eq_of_mem_replicate he, by decide⟩
      · split at he
        · cases he
        · exact ⟨m, List.mem_singleton.1 he, hm, by omega, hmax⟩
    obtain ⟨hset, -, hcls⟩ := makeupCode_mem c hm' hmin' hmax'
    refine ⟨hset, ?_⟩
    rw [hcls]
    split
    · simp
    · cases c <;> simp
  · obtain ⟨-, hvalue, -⟩ := makeupCode_mem c (m := 2560) (by decide) (by decide) (by decide)
    split
    · simp [hvalue, htvalue]; omega
    · obtain ⟨-, hvalue', -⟩ := makeupCode_mem c hm (by omega) hmax
      simp [hvalue, hvalue', htvalue]; omega

namespace HufDec

variable (d : HufDec)

/-- R144: the context past the codes of whole runs, whose pixels join the row; `c` is the colour after them. -/
def afterRuns (codes : List Entry) (px : List Polarity) (c : Polarity) : HufDec :=
  { d.past codes with row := d.row ++ px, color := c, pending := 0, pendingValid := false }

/-- R142: the context at the start of a scanline. -/
def begun : HufDec := { d with color := .white, row := [], pending := 0, pendingValid := false }

theorem afterRuns_bits {d : HufDec} {codes : List Entry} {rest : List Bool} (h : d.br.bits = codeBits codes ++ rest)
    (px : List Polarity) (c : Polarity) : (d.afterRuns codes px c).br.bits = rest := past_bits h

theorem afterRuns_append (codes codes' : List Entry) (px px' : List Polarity) (c c' : Polarity) :
    (d.afterRuns codes px c).afterRuns codes' px' c' = d.afterRuns (codes ++ codes') (px ++ px') c' := by
  rw [afterRuns, afterRuns, afterRuns, past_append, ← List.append_assoc]
  rfl

/-- R147: makeup codes count in the run that is closed after them. -/
theorem closed_past_grown (m : Entry) (codes : List Entry) (n n' : Nat) :
    (((d.past [m]).grown n).past codes).closed n' = (d.past (m :: codes)).closed (n + n') := by
  rw [past_cons m codes, closed, closed, ← Nat.add_assoc]
  rfl

end HufDec

namespace HufRun

variable {d : HufDec} {mode : HufMode} {first : Bool} {rest : List Bool}

/-- R143: a turn inside a scanline accepts the code word at the front. -/
theorem outcome_code {e : Entry} (h : ¬ (d.row.length = d.columns ∧ padding d.br.bits)) (he : e ∈ codeSet d.color)
    (hbits : d.br.bits = e.bits ++ rest) :
    outcome ⟨d, mode, .code first⟩ = (accept ⟨d.past [e], mode, .code first⟩ first e).resumed := by
  refine outcome_of_advance ?_
  rw [advance, turn_of_prefix h he (hbits ▸ List.prefix_append _ _)]
  rfl

/-- R147, R144: makeup codes that fit, and the terminating code after them. -/
theorem outcome_makeups_terminating {makeups : List Entry} {t : Entry} (hlt : d.row.length < d.columns)
    (hmakeups : ∀ e ∈ makeups, e ∈ codeSet d.color ∧ (e.cls = .makeupWhite ∨ e.cls = .makeupBlack ∨ e.cls = .extension))
    (ht : t ∈ codeSet d.color) (htcls : t.cls = .terminatingWhite ∨ t.cls = .terminatingBlack)
    (hfits : d.row.length + (d.pending + (makeups.map Entry.runValue).sum + t.runValue) ≤ d.columns)
    (hbits : d.br.bits = codeBits (makeups ++ [t]) ++ rest) :
    outcome ⟨d, mode, .code first⟩ =
      outcome ⟨(d.past (makeups ++ [t])).closed ((makeups.map Entry.runValue).sum + t.runValue), mode, .code false⟩ := by
  have hfull {d : HufDec} (hlt : d.row.length < d.columns) : ¬ (d.row.length = d.columns ∧ padding d.br.bits) :=
    fun h => absurd h.1 (Nat.ne_of_lt hlt)
  induction makeups generalizing d first with
  | nil =>
    rw [List.nil_append, codeBits_cons, List.append_assoc] at hbits
    rw [List.map_nil, List.sum_nil] at hfits ⊢
    rw [outcome_code (hfull hlt) ht hbits, accept_terminating hlt htcls, HufDec.closeRun_fits (by dsimp; omega), Nat.zero_add]
    rfl
  | cons m makeups ih =>
    obtain ⟨⟨hm, hmcls⟩, hmakeups⟩ := List.forall_mem_cons.1 hmakeups
    rw [List.cons_append, codeBits_cons, List.append_assoc] at hbits
    rw [List.map_cons, List.sum_cons] at hfits ⊢
    rw [outcome_code (hfull hlt) hm hbits, accept_makeup hlt hmcls, HufDec.addMakeup_fits (by dsimp; omega), List.cons_append,
      Nat.add_assoc, ← HufDec.closed_past_grown]
    refine ih (d := (d.past [m]).grown m.runValue) hlt hmakeups ht (by dsimp [HufDec.grown]; omega)
      (HufDec.past_bits (codes := [m]) ?_)
    simpa [codeBits] using hbits

/-- R133, R144: the codes of a run that fits. -/
theorem outcome_runCodes {n : Nat} (hpending : d.pending = 0) (hlt : d.row.length < d.columns)
    (hfits : d.row.length + n ≤ d.columns) (hbits : d.br.bits = codeBits (runCodes d.color n) ++ rest) :
    outcome ⟨d, mode, .code first⟩ =
      outcome ⟨d.afterRuns (runCodes d.color n) (List.replicate n d.color) d.color.flip, mode, .code false⟩ := by
  obtain ⟨makeups, t, hcodes, hmakeups, ht, htcls, hsum⟩ := runCodes_rows d.color n
  rw [hcodes] at hbits ⊢
  rw [outcome_makeups_terminating hlt hmakeups ht htcls (by omega) hbits, hsum, HufDec.closed, HufDec.past_pending, hpending,
    Nat.zero_add]
  rfl

/-- R132, R144: the codes of the runs cut from pixels that fill the row. -/
theorem outcome_cutRuns {n : Nat} {px : List Polarity} (hpending : d.pending = 0) (hlt : d.row.length < d.columns)
    (hfits : d.row.length + (n + px.length) = d.columns)
    (hbits : d.br.bits = codeBits ((cutRuns d.color n px).flatMap fun r => runCodes r.1 r.2) ++ rest) :
    outcome ⟨d, mode, .code first⟩ =
      outcome ⟨d.afterRuns ((cutRuns d.color n px).flatMap fun r => runCodes r.1 r.2) (List.replicate n d.color ++ px)
        (px.getLast?.getD d.color).flip, mode, .code false⟩ := by
  induction px generalizing d n first with
  | nil =>
    rw [cutRuns, List.flatMap_singleton] at hbits ⊢
    rw [List.append_nil]
    exact outcome_runCodes hpending hlt (by rw [← hfits]; simp) hbits
  | cons p px ih =>
    rw [List.length_cons] at hfits
    rw [cutRuns] at hbits ⊢
    rw [List.getLast?_cons, Option.getD_some]
    by_cases hp : p = d.color
    · subst hp
      rw [if_pos rfl] at hbits ⊢
      have hpx : List.replicate n d.color ++ d.color :: px = List.replicate (n + 1) d.color ++ px := by
        rw [List.replicate_succ', List.append_assoc, List.singleton_append]
      rw [hpx]
      exact ih hpending hlt (by omega) hbits
    · rw [if_neg hp, List.flatMap_cons] at hbits ⊢
      obtain rfl := Polarity.eq_flip_of_ne hp
      rw [codeBits_append, List.append_assoc] at hbits
      have hrow : (d.afterRuns (runCodes d.color n) (List.replicate n d.color) d.color.flip).row.length = d.row.length + n :=
        by simp [HufDec.afterRuns]
      have hrest := ih (d := d.afterRuns (runCodes d.color n) (List.replicate n d.color) d.color.flip) (first := false) (n := 1)
        rfl (by rw [hrow]; show _ < d.columns; omega) (by rw [hrow]; show _ = d.columns; omega) (HufDec.afterRuns_bits hbits _ _)
      rw [HufDec.afterRuns_append] at hrest
      exact (outcome_runCodes hpending hlt (by omega) hbits).trans hrest

/-- R132, R144: the run codes of a row of `columns` pixels leave the row; a row of no pixels has none. -/
theorem outcome_rowCodes {px : List Polarity} (hlen : px.length = d.columns)
    (hbits : d.br.bits = codeBits (rowCodes px) ++ rest) :
    ∃ first, outcome ⟨d.begun, mode, .code true⟩ =
      outcome ⟨d.begun.afterRuns (rowCodes px) px ((px.getLast?.map Polarity.flip).getD .white), mode, .code first⟩ := by
  cases px with
  | nil => exact ⟨true, rfl⟩
  | cons p px =>
    have hrow := outcome_cutRuns (d := d.begun) (mode := mode) (first := true) (n := 0) (px := p :: px) (rest := rest) rfl
      (hlen ▸ Nat.succ_pos _) (by simpa [HufDec.begun] using hlen) hbits
    refine ⟨false, hrow.trans ?_⟩
    rw [List.getLast?_cons]
    rfl

end HufRun

/-! ## The ends of a scanline -/

theorem eolEntry_mem (c : Polarity) : eolEntry ∈ codeSet c := by simp [codeSet]

/-- R75: the run codes of a row are rows of the code sets. -/
theorem mem_codeSet_of_mem_rowCodes {px : List Polarity} {e : Entry} (h : e ∈ rowCodes px) : ∃ c, e ∈ codeSet c := by
  obtain ⟨r, -, he⟩ := List.mem_flatMap.1 h
  obtain ⟨makeups, t, hcodes, hmakeups, ht, -⟩ := runCodes_rows r.1 r.2
  rw [hcodes] at he
  obtain he | he := List.mem_append.1 he
  · exact ⟨r.1, (hmakeups e he).1⟩
  · exact ⟨r.1, List.mem_singleton.1 he ▸ ht⟩

namespace HufDec

variable (d : HufDec) (px : List Polarity)

theorem afterRow_eq :
    d.afterRow px =
      (d.begun.afterRuns (rowCodes px) px ((px.getLast?.map Polarity.flip).getD .white)).past [eolEntry] := by
  simp [afterRow, afterRuns, past, begun, lineBits, codeBits, Nat.add_assoc, eolEntry]

theorem afterLastRow_eq {e : Entry} (he : (rowCodes px).getLast? = some e) :
    d.afterLastRow px e = d.begun.afterRuns (rowCodes px) px ((px.getLast?.map Polarity.flip).getD .white) := by
  simp [afterLastRow, afterRuns, past, begun, he]

theorem afterEol_eq : d.afterEol = d.begun.past [eolEntry] := rfl

/-- R142, R150: whether an operation takes another scanline: `HUF_DEC_PAGE` not when it has its rows. -/
def Wants : HufMode → Prop
  | .line => True
  | .page rows => d.rowsOut.length + d.held < rows

end HufDec

namespace HufRun

variable {d : HufDec} {mode : HufMode} {rest : List Bool} (hwants : d.Wants mode)

include hwants

theorem advance_head : advance ⟨d, mode, .head⟩ = beginLine ⟨d, mode, .head⟩ := by
  cases mode with
  | line => rfl
  | page rows =>
    have hturn : turn ⟨d, .page rows, .head⟩ = .stop (beginLine ⟨d, .page rows, .head⟩) := if_pos hwants
    rw [advance, hturn]
    rfl

/-- R146: a scanline at a padding tail. -/
theorem outcome_padding (hpad : padding d.br.bits) :
    outcome ⟨d, mode, .head⟩ = (endLine ⟨d, mode, .head⟩ .endOfInput).resumed :=
  outcome_of_advance ((advance_head hwants).trans (if_pos (BitReader.paddingTail_iff.2 hpad)))

theorem outcome_begin (hpad : ¬ padding d.br.bits) : outcome ⟨d, mode, .head⟩ = outcome ⟨d.begun, mode, .code true⟩ :=
  outcome_of_advance ((advance_head hwants).trans (if_neg (by rwa [BitReader.paddingTail_iff])))

/-- R142: a scanline of a row, up to its EOL. -/
theorem outcome_line {px : List Polarity} (hlen : px.length = d.columns) (hbits : d.br.bits = lineBits px ++ rest) :
    ∃ phase, outcome ⟨d, mode, .head⟩ = (endLine ⟨d.afterRow px, mode, phase⟩ (.row px)).resumed := by
  have hpad : ¬ padding d.br.bits := hbits ▸ not_padding_of_mem (eolEntry_mem .white)
  rw [lineBits, List.append_assoc] at hbits
  obtain ⟨first, hrow⟩ := outcome_rowCodes (mode := mode) hlen hbits
  have hbits' := HufDec.afterRuns_bits (d := d.begun) hbits px ((px.getLast?.map Polarity.flip).getD .white)
  have hpad' : ¬ padding (eolEntry.bits ++ rest) := not_padding_of_mem (xs := []) (eolEntry_mem .white)
  refine ⟨.code first, ?_⟩
  rw [outcome_begin hwants hpad, hrow, HufDec.afterRow_eq,
    outcome_code (fun h => hpad' (hbits' ▸ h.2)) (eolEntry_mem _) hbits', accept_eol_fullRow hlen rfl]
  rfl

/-- R149: a scanline of a row whose run codes end at a padding tail. -/
theorem outcome_lastLine {px : List Polarity} {e : Entry} (hlen : px.length = d.columns)
    (he : (rowCodes px).getLast? = some e) (hbits : d.br.bits = codeBits (rowCodes px) ++ rest) (hrest : padding rest) :
    ∃ phase, outcome ⟨d, mode, .head⟩ = (endLine ⟨d.afterLastRow px e, mode, phase⟩ (.row px)).resumed := by
  have hpad : ¬ padding d.br.bits := by
    obtain ⟨codes, hcodes⟩ := List.getLast?_eq_some_iff.1 he
    obtain ⟨c, hc⟩ := mem_codeSet_of_mem_rowCodes (List.mem_of_getLast? he)
    rw [hbits, hcodes, codeBits_append]
    simpa [codeBits] using not_padding_of_mem hc (xs := codeBits codes) (ys := rest)
  obtain ⟨first, hrow⟩ := outcome_rowCodes (mode := mode) hlen hbits
  have hbits' := HufDec.afterRuns_bits (d := d.begun) hbits px ((px.getLast?.map Polarity.flip).getD .white)
  refine ⟨.code first, ?_⟩
  rw [outcome_begin hwants hpad, hrow, HufDec.afterLastRow_eq _ _ he]
  refine outcome_of_advance ?_
  rw [advance, turn_fullRow hlen (hbits' ▸ hrest)]
  rfl

/-- R142: a scanline that is EOL only. -/
theorem outcome_eol (hcolumns : 1 ≤ d.columns) (hbits : d.br.bits = eolEntry.bits ++ rest) :
    outcome ⟨d, mode, .head⟩ = (endLine ⟨d.afterEol, mode, .code true⟩ .eolOnly).resumed := by
  have hpad : ¬ padding d.br.bits := hbits ▸ not_padding_of_mem (xs := []) (eolEntry_mem .white)
  rw [outcome_begin hwants hpad, outcome_code (d := d.begun) (fun h => hpad h.2) (eolEntry_mem _) hbits,
    accept_eol (r := ⟨d.begun.past [eolEntry], mode, .code true⟩) hcolumns rfl, HufDec.afterEol_eq]
  rfl

/-- R145: a scanline at bits that begin with no code word. -/
theorem outcome_noCode (hpad : ¬ padding d.br.bits) (hnone : ∀ e ∈ codeSet .white, ¬ e.bits <+: d.br.bits) :
    outcome ⟨d, mode, .head⟩ = .raised .corruptBitstream := by
  rw [outcome_begin hwants hpad]
  refine outcome_of_advance (p := .raised _) ?_
  rw [advance, turn_of_no_prefix (d := d.begun) (fun h => hpad h.2) hnone]
  rfl

end HufRun

/-! ## `HUF_DEC_LINE` -/

section

variable {s : State} (hs : s.ready = true)

include hs

theorem exec_hufDecLine {d : HufDec} (hd : s.hufDec = some d) :
    exec .hufDecLine s = settleHuf s.popDraw (HufRun.outcome ⟨d, .line, .head⟩) := by
  rw [exec, execHufDecLine, operation_ready hs, State.popDraw_hufDec, hd, ← HufDec.run_eq_outcome]

theorem exec_hufDecLine_noSession (hnone : s.hufDec = none) :
    exec .hufDecLine s = .next (s.answered .hufDec .invalidOperand .nothing) := by
  rw [exec, execHufDecLine, operation_ready hs, State.popDraw_hufDec, hnone, State.popDraw_raise_invalidOperand hs]

/-- R142: the line leaves the session open at the context it ends in. -/
theorem settleHuf_popDraw_line (d : HufDec) (phase : HufPhase) (st : Status) (res : Result) :
    settleHuf s.popDraw (.done ⟨d, .line, phase⟩ st res) =
      .next { s.answered .hufDec st res with hufDec := some d } := by
  rw [← State.popDraw_finish (State.active_of_ready hs)]
  rfl

/-- R285: an error closes the session. -/
theorem settleHuf_popDraw_raised {e : ErrorKind} (he : e ≠ .invalidOperand) :
    settleHuf s.popDraw (.raised e) = .next { s.answered .hufDec e.status .nothing with hufDec := none } := by
  rw [settleHuf_raised _ he, ← State.popDraw_finish (State.active_of_ready hs)]
  rfl

end

/-- Settles O16: the scanline ends with the row (`HufRun.outcome_line`, `HufRun.outcome_lastLine`), which the line returns. -/
theorem hufDecLineReadsAnEncodedRow : Obligations.HufDecLineReadsAnEncodedRow := by
  intro s d px rest hs hd _ hlen
  rw [exec_hufDecLine hs hd]
  refine ⟨fun hbits => ?_, fun e he hbits hrest => ?_⟩
  · obtain ⟨phase, hline⟩ := HufRun.outcome_line (mode := .line) trivial hlen hbits
    rw [hline]
    exact settleHuf_popDraw_line hs _ _ _ _
  · obtain ⟨phase, hline⟩ := HufRun.outcome_lastLine (mode := .line) trivial hlen he hbits hrest
    rw [hline]
    exact settleHuf_popDraw_line hs _ _ _ _

/-- Settles O17: the other ends of a scanline (`HufRun.outcome_eol`, `HufRun.outcome_padding`, `HufRun.outcome_noCode`). -/
theorem hufDecLineWithoutARow : Obligations.HufDecLineWithoutARow := by
  intro s hs
  refine ⟨exec_hufDecLine_noSession hs, fun d hd _ hcolumns => ?_⟩
  rw [exec_hufDecLine hs hd]
  refine ⟨fun rest hbits => ?_, fun hpad => ?_, fun hpad hnone => ?_⟩
  · rw [HufRun.outcome_eol (mode := .line) trivial hcolumns hbits]
    exact settleHuf_popDraw_line hs _ _ _ _
  · rw [HufRun.outcome_padding (mode := .line) trivial hpad]
    refine (settleHuf_popDraw_line hs _ _ _ _).trans ?_
    rw [← hd]
    rfl
  · rw [HufRun.outcome_noCode (mode := .line) trivial hpad hnone]
    exact settleHuf_popDraw_raised hs (by decide)

end Sys2Proof.Machine
end

section
/-! O18 and O19. `HufDec.PageAt` says where a page stands: the rows delivered, the scanlines held and the bits left. A scanline of
a row or an EOL moves it on (`HufRun.outcome_page_rows`, `HufRun.outcome_page_eols`) or ends the page; the bits of an encoded page
are such scanlines, so the number of rows declared says how far it is read (`HufRun.outcome_page_encoded`). -/

namespace Sys2Proof.Machine

/-! ## The ends of a page -/

/-- R150, R151: where a decoder stands between two scanlines of a page. -/
structure HufDec.PageAt (d : HufDec) (columns : Nat) (rowsOut : List (List Polarity)) (held : Nat) (bits : List Bool) : Prop where
  columns : d.columns = columns
  rowsOut : d.rowsOut = rowsOut
  held : d.held = held
  bits : d.br.bits = bits

/-- R132, R133: a row with a pixel has a run, and every run has a code. -/
theorem rowCodes_ne_nil {px : List Polarity} (h : px ≠ []) : rowCodes px ≠ [] := by
  intro hnil
  have hruns : rowRuns px = [] := List.eq_nil_iff_forall_not_mem.2 fun r hr => by
    obtain ⟨makeups, t, hcodes, -⟩ := runCodes_rows r.1 r.2
    exact absurd (List.flatMap_eq_nil_iff.1 hnil r hr) (by simp [hcodes])
  obtain ⟨hexpand, -⟩ := rowRunsAlternateFromWhite px
  rw [hruns] at hexpand
  exact h hexpand.symm

namespace HufRun

variable {d : HufDec} {columns held rows : Nat} {rowsOut : List (List Polarity)} {bits rest : List Bool}

/-- R150, R151: a page with its rows, the held scanlines among them as white rows. -/
theorem outcome_page_done (hd : d.PageAt columns rowsOut held bits) (hrows : rows ≤ rowsOut.length + held) :
    ∃ d', outcome ⟨d, .page rows, .head⟩ =
      .done ⟨d', .page rows, .head⟩ .ok (.rows (rowsOut ++ List.replicate held (List.replicate columns .white))) := by
  obtain ⟨rfl, rfl, rfl, -⟩ := hd
  have hturn : turn ⟨d, .page rows, .head⟩ = .stop (.done ⟨_, .page rows, .head⟩ .ok _) := if_neg (Nat.not_lt.2 hrows)
  refine ⟨{ d with rowsOut := d.rowsOut ++ d.whiteRows d.held }, outcome_of_advance (p := .done _ _ _) ?_⟩
  rw [advance, hturn]
  rfl

/-- R153: a page at a padding tail before it has its rows. -/
theorem outcome_page_padding (hd : d.PageAt columns rowsOut held bits) (hrows : rowsOut.length + held < rows)
    (hpad : padding bits) : outcome ⟨d, .page rows, .head⟩ = .raised .pixelCountMismatch := by
  obtain ⟨rfl, rfl, rfl, rfl⟩ := hd
  exact outcome_padding (mode := .page rows) hrows hpad

/-- R151: EOLs before the third one of a page are held. -/
theorem outcome_page_eols {n : Nat} (hcolumns : 1 ≤ columns)
    (hd : d.PageAt columns rowsOut held (codeBits (List.replicate n eolEntry) ++ rest)) (hheld : held + n < 3)
    (hrows : rowsOut.length + held + n ≤ rows) :
    ∃ d', d'.PageAt columns rowsOut (held + n) rest ∧
      outcome ⟨d, .page rows, .head⟩ = outcome ⟨d', .page rows, .head⟩ := by
  induction n generalizing d held with
  | zero => exact ⟨d, hd, rfl⟩
  | succ n ih =>
    obtain ⟨rfl, rfl, rfl, hbits⟩ := hd
    rw [List.replicate_succ, codeBits_cons, List.append_assoc] at hbits
    have heol := outcome_eol (mode := .page rows) (show _ < rows by omega) hcolumns hbits
    rw [endLine_page_held (d := d.afterEol) _ (show d.held < 2 by omega)] at heol
    obtain ⟨d', hd', hrest⟩ := ih (d := { d.afterEol with held := d.held + 1 }) (held := d.held + 1)
      ⟨rfl, rfl, rfl, HufDec.past_bits (codes := [eolEntry]) (by simpa [codeBits] using hbits)⟩ (by omega) (by omega)
    exact ⟨d', by rwa [Nat.add_assoc, Nat.add_comm 1] at hd', heol.trans hrest⟩

/-- R152: the third EOL in a row ends the page. -/
theorem outcome_page_early (hcolumns : 1 ≤ columns)
    (hd : d.PageAt columns rowsOut held (codeBits (List.replicate (3 - held) eolEntry) ++ rest)) (hheld : held < 3)
    (hrows : rowsOut.length + 3 ≤ rows) :
    ∃ d' phase, outcome ⟨d, .page rows, .head⟩ = .done ⟨d', .page rows, phase⟩ .okEarlyEnd (.rows rowsOut) := by
  have hthree : 3 - held = (2 - held) + 1 := by omega
  rw [hthree, List.replicate_add, codeBits_append, List.append_assoc] at hd
  obtain ⟨d₂, ⟨hcol, hout, hheld₂, hbits⟩, heols⟩ := outcome_page_eols (rows := rows) hcolumns hd (by omega) (by omega)
  have heol := outcome_eol (d := d₂) (mode := .page rows) (rest := rest) (by show _ + _ < rows; rw [hout]; omega)
    (by omega) (by simpa [codeBits] using hbits)
  rw [endLine_page_third (d := d₂.afterEol) _ (show d₂.held = 2 by omega)] at heol
  exact ⟨_, _, heols.trans (hout ▸ heol)⟩

/-- R150, R151: a scanline of a row joins the page. -/
theorem outcome_page_row {px : List Polarity} (hd : d.PageAt columns rowsOut held (lineBits px ++ rest))
    (hlen : px.length = columns) (hrows : rowsOut.length + held < rows) :
    ∃ d', d'.PageAt columns (rowsOut ++ List.replicate held (List.replicate columns .white) ++ [px]) 0 rest ∧
      outcome ⟨d, .page rows, .head⟩ = outcome ⟨d', .page rows, .head⟩ := by
  obtain ⟨rfl, rfl, rfl, hbits⟩ := hd
  obtain ⟨phase, hline⟩ := outcome_line (mode := .page rows) hrows hlen hbits
  refine ⟨(d.afterRow px).withRow px, ⟨rfl, rfl, rfl, ?_⟩, hline⟩
  have hdrop : ((d.afterRow px).withRow px).br.bits = d.br.bits.drop (lineBits px).length := BitReader.bits_advance _ _
  rw [hdrop, hbits, List.drop_left]

/-- R150: scanlines of rows join the page in order. -/
theorem outcome_page_rows {pxs : List (List Polarity)} (hd : d.PageAt columns rowsOut 0 (pxs.flatMap lineBits ++ rest))
    (hlen : ∀ px ∈ pxs, px.length = columns) (hrows : rowsOut.length + pxs.length ≤ rows) :
    ∃ d', d'.PageAt columns (rowsOut ++ pxs) 0 rest ∧
      outcome ⟨d, .page rows, .head⟩ = outcome ⟨d', .page rows, .head⟩ := by
  induction pxs generalizing d rowsOut with
  | nil => exact ⟨d, by simpa using hd, rfl⟩
  | cons px pxs ih =>
    obtain ⟨hpx, hlen⟩ := List.forall_mem_cons.1 hlen
    rw [List.length_cons] at hrows
    rw [List.flatMap_cons, List.append_assoc] at hd
    obtain ⟨d₁, hd₁, hrow⟩ := outcome_page_row (rows := rows) hd hpx (by omega)
    rw [List.replicate_zero, List.append_nil] at hd₁
    obtain ⟨d', hd', hrest⟩ := ih hd₁ hlen (by simp; omega)
    exact ⟨d', by simpa using hd', hrow.trans hrest⟩

/-- R149: a scanline of a row whose run codes end at a padding tail joins the page, which stands at the tail. -/
theorem outcome_page_lastRow {px : List Polarity} (hd : d.PageAt columns rowsOut held (codeBits (rowCodes px) ++ rest))
    (hrest : padding rest) (hpx : px ≠ []) (hlen : px.length = columns) (hrows : rowsOut.length + held < rows) :
    ∃ d', d'.PageAt columns (rowsOut ++ List.replicate held (List.replicate columns .white) ++ [px]) 0 rest ∧
      outcome ⟨d, .page rows, .head⟩ = outcome ⟨d', .page rows, .head⟩ := by
  obtain ⟨rfl, rfl, rfl, hbits⟩ := hd
  obtain ⟨e, he⟩ : ∃ e, (rowCodes px).getLast? = some e := ⟨_, List.getLast?_eq_some_getLast (rowCodes_ne_nil hpx)⟩
  obtain ⟨phase, hline⟩ := outcome_lastLine (mode := .page rows) hrows hlen he hbits hrest
  refine ⟨(d.afterLastRow px e).withRow px, ⟨rfl, rfl, rfl, ?_⟩, hline⟩
  have hdrop : ((d.afterLastRow px e).withRow px).br.bits = d.br.bits.drop (codeBits (rowCodes px)).length :=
    BitReader.bits_advance _ _
  rw [hdrop, hbits, List.drop_left]

end HufRun

/-! ## `HUF_DEC_PAGE` -/

section

variable {s : State} (hs : s.ready = true)

include hs

theorem exec_hufDecPage {d : HufDec} (hd : s.hufDec = some d) (rows : Nat) :
    exec (.hufDecPage rows) s = settleHuf s.popDraw (HufRun.outcome ⟨d, .page rows, .head⟩) := by
  rw [exec, execHufDecPage, operation_ready hs, State.popDraw_hufDec, hd, ← HufDec.run_eq_outcome]

theorem exec_hufDecPage_noSession (hnone : s.hufDec = none) (rows : Nat) :
    exec (.hufDecPage rows) s = .next (s.answered .hufDec .invalidOperand .nothing) := by
  rw [exec, execHufDecPage, operation_ready hs, State.popDraw_hufDec, hnone, State.popDraw_raise_invalidOperand hs]

/-- R150: the page closes the session. -/
theorem settleHuf_popDraw_page (d : HufDec) (rows : Nat) (phase : HufPhase) (st : Status) (res : Result) :
    settleHuf s.popDraw (.done ⟨d, .page rows, phase⟩ st res) =
      .next { s.answered .hufDec st res with hufDec := none } := by
  rw [← State.popDraw_finish (State.active_of_ready hs)]
  rfl

end

/-- Settles O18: the page returns (`HufRun.outcome_page_done`, `HufRun.outcome_page_early`) or fails at a padding tail
(`HufRun.outcome_page_padding`), also after a row that ends there (`HufRun.outcome_page_lastRow`). -/
theorem hufDecPageEnds : Obligations.HufDecPageEnds := by
  intro s rows hs
  refine ⟨fun hnone => exec_hufDecPage_noSession hs hnone rows, fun d hd _ hcolumns => ?_⟩
  rw [exec_hufDecPage hs hd]
  refine ⟨fun hrows => ?_, fun rest hbits hheld hrows => ?_, fun hrows hpad => ?_, fun px tail hlen hbits hpad => ?_⟩
  · obtain ⟨d', hdone⟩ := HufRun.outcome_page_done ⟨rfl, rfl, rfl, rfl⟩ hrows
    rw [hdone]
    exact settleHuf_popDraw_page hs _ _ _ _ _
  · obtain ⟨d', phase, hearly⟩ := HufRun.outcome_page_early hcolumns ⟨rfl, rfl, rfl, hbits⟩ hheld hrows
    rw [hearly]
    exact settleHuf_popDraw_page hs _ _ _ _ _
  · rw [HufRun.outcome_page_padding ⟨rfl, rfl, rfl, rfl⟩ hrows hpad]
    exact settleHuf_popDraw_raised hs (by decide)
  · have hpx : px ≠ [] := List.length_pos_iff.1 (by omega)
    have hlast (hrows : d.rowsOut.length + d.held < rows) :=
      HufRun.outcome_page_lastRow ⟨rfl, rfl, rfl, hbits⟩ hpad hpx hlen hrows
    refine ⟨fun hrows => ?_, fun hrows => ?_⟩
    · obtain ⟨d', hd', hrow⟩ := hlast (by omega)
      obtain ⟨d'', hdone⟩ := HufRun.outcome_page_done (rows := rows) hd' (by simp; omega)
      rw [hrow, hdone, List.replicate_zero, List.append_nil]
      exact settleHuf_popDraw_page hs _ _ _ _ _
    · obtain ⟨d', hd', hrow⟩ := hlast (by omega)
      rw [hrow, HufRun.outcome_page_padding hd' (by simp; omega) hpad]
      exact settleHuf_popDraw_raised hs (by decide)

/-! ## An encoded page -/

/-- R77: the code words at the front of some equal ones. -/
theorem codeBits_replicate {n m : Nat} (h : n ≤ m) (e : Entry) :
    codeBits (List.replicate m e) = codeBits (List.replicate n e) ++ codeBits (List.replicate (m - n) e) := by
  rw [← codeBits_append, List.replicate_append_replicate, Nat.add_sub_cancel' h]

namespace HufRun

variable {d : HufDec} {columns rows : Nat} {pxs : List (List Polarity)} {rest : List Bool}
  (hcolumns : 1 ≤ columns) (hlen : ∀ px ∈ pxs, px.length = columns) (hd : d.PageAt columns [] 0 (pageBits pxs ++ rest))

include hlen hd

/-- R150: with no more rows declared than there are, the first of them are read. -/
theorem outcome_page_first (hrows : rows ≤ pxs.length) :
    ∃ d', outcome ⟨d, .page rows, .head⟩ = .done ⟨d', .page rows, .head⟩ .ok (.rows (pxs.take rows)) := by
  have hsplit : pxs.flatMap lineBits = (pxs.take rows).flatMap lineBits ++ (pxs.drop rows).flatMap lineBits := by
    rw [← List.flatMap_append, List.take_append_drop]
  rw [pageBits, hsplit, List.append_assoc, List.append_assoc] at hd
  obtain ⟨d', hd', hread⟩ := outcome_page_rows (rows := rows) hd (fun px hpx => hlen px (List.mem_of_mem_take hpx)) (by simp)
  obtain ⟨d'', hdone⟩ := outcome_page_done (rows := rows) hd' (by simp [hrows])
  exact ⟨d'', by rw [hread, hdone]; simp⟩

/-- R150: with as many rows declared as there are or more, all of them are read, and at least five EOLs are left. -/
theorem outcome_page_all (hrows : pxs.length ≤ rows) :
    ∃ d' rest', d'.PageAt columns pxs 0 (codeBits (List.replicate 3 eolEntry) ++ rest') ∧
      outcome ⟨d, .page rows, .head⟩ = outcome ⟨d', .page rows, .head⟩ := by
  have heols : 3 ≤ if pxs = [] then 6 else 5 := by split <;> decide
  rw [pageBits, codeBits_replicate heols, List.append_assoc, List.append_assoc] at hd
  obtain ⟨d', hd', hread⟩ := outcome_page_rows (rows := rows) hd hlen (by simpa using hrows)
  exact ⟨d', _, by simpa using hd', hread⟩

include hcolumns

/-- R155, R151, R152: what an encoded page gives for each number of rows declared. -/
theorem outcome_page_encoded (rows : Nat) :
    ∃ d' phase, outcome ⟨d, .page rows, .head⟩ =
      .done ⟨d', .page rows, phase⟩ (if rows < pxs.length + 3 then .ok else .okEarlyEnd)
        (.rows (pxs.take rows ++ List.replicate (if rows < pxs.length + 3 then rows - pxs.length else 0)
          (List.replicate columns .white))) := by
  by_cases hfirst : rows ≤ pxs.length
  · obtain ⟨d', hdone⟩ := outcome_page_first hlen hd hfirst
    refine ⟨d', .head, ?_⟩
    rw [hdone, if_pos (by omega), if_pos (by omega), Nat.sub_eq_zero_of_le hfirst, List.replicate_zero, List.append_nil]
  · obtain ⟨d₁, rest', hd₁, hread⟩ := outcome_page_all hlen hd (rows := rows) (by omega)
    rw [hread, List.take_of_length_le (by omega)]
    by_cases hheld : rows < pxs.length + 3
    · rw [codeBits_replicate (n := rows - pxs.length) (by omega), List.append_assoc] at hd₁
      obtain ⟨d₂, hd₂, heols⟩ := outcome_page_eols (rows := rows) hcolumns hd₁ (by omega) (by omega)
      obtain ⟨d', hdone⟩ := outcome_page_done (rows := rows) hd₂ (by omega)
      refine ⟨d', .head, ?_⟩
      rw [heols, hdone, if_pos hheld, if_pos hheld, Nat.zero_add]
    · obtain ⟨d', phase, hearly⟩ := outcome_page_early (rows := rows) hcolumns hd₁ (by decide) (by omega)
      refine ⟨d', phase, ?_⟩
      rw [hearly, if_neg hheld, if_neg hheld, List.replicate_zero, List.append_nil]

end HufRun

/-- Settles O19: the bytes of the page begin with its bits (`huffmanPageStreamFormat`), which a fresh decoder reads as far as the
rows declared (`HufRun.outcome_page_encoded`). -/
theorem huffmanPageRoundTrip : Obligations.HuffmanPageRoundTrip := by
  intro s columns lines hs hmin hmax hlines hcap
  obtain ⟨t, out, hencode, hstatus, hresult, -, z, -, hpage⟩ := huffmanPageStreamFormat s columns lines hs hmin hmax hlines hcap
  refine ⟨t, out, hencode, hstatus, hresult, fun u rows hu => ?_⟩
  have hlen : ∀ px ∈ lines.map linePixels, px.length = columns := fun px hpx => by
    obtain ⟨l, hl, rfl⟩ := List.mem_map.1 hpx
    exact (hlines l hl).2
  have hbegin := exec_hufDecBegin (State.ready_of_quiet hu) (columns := columns)
    (by simp [columnsOk, maxColumns, hmin, hmax]) out
  obtain ⟨d', phase, hread⟩ := HufRun.outcome_page_encoded (d := HufDec.fresh out columns) hmin hlen
    ⟨rfl, rfl, rfl, hpage⟩ rows
  rw [List.length_map] at hread
  have hdecode := exec_hufDecPage
    (s := { u.answered .hufDec .ok .nothing with hufDec := some (HufDec.fresh out columns) })
    (State.ready_of_quiet (State.quiet_answered hu .hufDec .ok .nothing)) rfl rows
  rw [hread] at hdecode
  exact ⟨_, (execAll_cons hbegin).trans (execAll_cons hdecode), rfl, rfl, rfl⟩

end Sys2Proof.Machine
end

section
/-! O46. What stands at the head of a step inside each decoder: the token at its place in the stream, whose instruction the step
executes, or the end of the operation. -/

namespace Sys2Proof.Machine

/-! ## The ends of a single-operation unit -/

/-- R285: an error of a unit whose session is its operation leaves nothing to close. -/
theorem settle_raised_ended {α : Type} {u : Session} (mk : α → Active) {s : State} (hu : s.close u = s) (e : ErrorKind) :
    settle u mk s (.raised e) = .next (s.ended u e.status .nothing) := by
  rw [settle_raised, State.raise, hu, ite_self]
  rfl

/-! ## The Huffman decoder -/

section

variable {s : State} {d : HufDec} {mode : HufMode} {first : Bool} (ha : s.active = some (.hufDec mode (.code first)))
  (hd : s.hufDec = some d)

include ha hd

/-- R149: a full row at a padding tail ends its scanline without a code word. -/
theorem step_hufDec_fullRow (hfull : d.row.length = d.columns) (hpad : padding d.br.bits) :
    (mode = .line → step s = .next (s.ended .hufDec .ok (.row d.row))) ∧
      ∀ rows, mode = .page rows →
        step s = .next { s with hufDec := some (d.withRow d.row), active := some (.hufDec (.page rows) .head) } := by
  rw [step_hufDec ha hd, HufRun.turn_fullRow hfull hpad]
  refine ⟨?_, ?_⟩
  · rintro rfl
    exact settleHuf_line hd _ _ _
  · rintro rows rfl
    rw [HufRun.endLine_page_row]
    rfl

variable (h : ¬ (d.row.length = d.columns ∧ padding d.br.bits))

include h

/-- R143, R145: bits that begin with no code word. -/
theorem step_hufDec_noCode (hnone : ∀ e ∈ codeSet d.color, ¬ e.bits <+: d.br.bits) :
    step s = .next { s.ended .hufDec .corruptBitstream .nothing with hufDec := none } := by
  rw [step_hufDec ha hd, HufRun.turn_of_no_prefix h hnone]
  exact settleHuf_raised s (by decide)

/-- R143: the code word at the front is executed past it. -/
theorem step_hufDec_code {i : Instr} (hi : decode (.huf d.color d.br.bits) = .ok i) :
    ∃ e, codeEntry i = some e ∧ step s = exec i { s with hufDec := some (d.past [e]) } := by
  cases he : decodeEntry d.color d.br.bits with
  | error x => rw [decode, he] at hi; cases hi
  | ok e =>
    obtain ⟨hmem, hpre⟩ := decodeEntry_eq_ok_iff.1 he
    rw [decode, he] at hi
    cases hi
    exact ⟨e, codeEntry_instr _ e hmem, by rw [step_hufDec ha hd, HufRun.turn_of_prefix h hmem hpre]⟩

end

/-! ## The LZW decoder -/

/-- R87, R190: the head of a turn by the bits left. -/
theorem LzwDec.turn_eq (c : LzwDec) :
    c.turn =
      if c.br.bits.length < c.width then .stop (.raised .corruptBitstream)
      else .token (decodeLzw c.prev.isSome c.next (streamValue c.br.order (c.br.bits.take c.width)))
        { c with br := { c.br with bitpos := c.br.bitpos + c.width } } := by
  rw [turn, BitReader.readBits, BitReader.bits_length, BitReader.peek_eq_take]
  by_cases hshort : c.br.remaining < c.width
  · rw [if_pos hshort, if_pos hshort]
  · rw [if_neg hshort, if_neg hshort]

/-! ## The statement -/

/-- Settles O46: at the head of a turn stands a code word of the Huffman decoder (`HufRun.turn_of_prefix`), an LZW code
(`LzwDec.turn_eq`) or the byte or packet at the cursor, and where there is none the turn ends the operation. -/
theorem stepRunsTheNextToken : Obligations.StepRunsTheNextToken := by
  refine ⟨fun s d mode first ha hd _ hfull hpad => step_hufDec_fullRow ha hd hfull hpad, fun s => ?_, fun s i => ?_⟩
  · refine ⟨fun d mode first ha hd _ h hnone => step_hufDec_noCode ha hd h hnone, fun c ha _ hshort => ?_, fun c ha hend => ?_,
      fun c ha => ⟨fun hlt hend => ?_, fun hle => ?_⟩, fun c ha => ⟨fun hlt hend => ?_, fun hle => ?_⟩, fun c ha hend => ?_⟩
    · rw [step_lzwDec ha, LzwDec.turn_eq, if_pos hshort]
      exact settle_raised_ended _ rfl _
    · rw [step_sbUnpack ha, sbTurn, List.getElem?_eq_none hend]
      exact settle_raised_ended _ rfl _
    · rw [step_pbDec ha, PbDec.turn, if_pos hlt, List.getElem?_eq_none hend]
      exact settle_raised_ended _ rfl _
    · rw [step_pbDec ha, PbDec.turn, if_neg (Nat.not_lt.2 hle)]
      rfl
    · have hnone : decodeCv s.params.sampleBytes (c.input.drop c.i) = none := by
        rw [decodeCv, List.drop_drop, List.drop_eq_nil_of_le (by omega)]
      rw [step_cvDec ha, CvDec.turn, if_pos hlt, hnone]
      exact settle_raised_ended _ rfl _
    · rw [step_cvDec ha, CvDec.turn, if_neg (Nat.not_lt.2 hle)]
      rfl
    · rw [step_a85Dec ha, A85Dec.turn, List.getElem?_eq_none hend]
      exact settle_raised_ended _ rfl _
  · refine ⟨fun d mode first ha hd _ h hi => ?_, fun c ha ho hlen hi => ?_, fun c b ha hb hi => ?_,
      fun c b ha hlt hb hi => ?_, fun c ha hlt hi => ?_, fun c ch ha hch hi => ?_⟩
    · obtain ⟨e, he, hstep⟩ := step_hufDec_code ha hd h hi
      refine ⟨e, he, hstep.trans ?_⟩
      simp [HufDec.past, codeBits]
    · rw [step_lzwDec ha, LzwDec.turn_eq, if_neg (Nat.not_lt.2 hlen), ho]
      cases hi
      rfl
    · rw [step_sbUnpack ha, sbTurn, hb]
      cases hi
      rfl
    · rw [step_pbDec ha, PbDec.turn, if_pos hlt, hb]
      cases hi
      rfl
    · rw [step_cvDec ha, CvDec.turn, if_pos hlt]
      cases hcv : decodeCv s.params.sampleBytes (c.input.drop c.i) with
      | none => rw [decode, hcv] at hi; cases hi
      | some t =>
        rw [decode, hcv] at hi
        cases hi
        rfl
    · rw [step_a85Dec ha, A85Dec.turn, hch]
      cases hi
      rfl

end Sys2Proof.Machine
end

section
/-! O27 and O25. A code that stands for a string (`LzwDec.Resolves`) is taken as that string (`LzwDec.accept_of_resolves`), and
what taking it comes to is said once (`LzwDec.emitString_took` and the two errors). -/

namespace Sys2Proof.Machine

namespace LzwDec

variable {p : Params} {c : LzwDec} {k : Nat} {str : List Byte}

/-! ## The string of a code -/

/-- R191, R193: the code `k` stands for the string `str`: a literal, an assigned code, or the code `next`. -/
def Resolves (c : LzwDec) (k : Nat) (str : List Byte) : Prop :=
  k < 256 ∧ str = [BitVec.ofNat 8 k] ∨
  c.prev ≠ none ∧ 258 ≤ k ∧ k < c.next ∧ c.string k = some str ∨
  k = c.next ∧ ∃ j q, c.prev = some j ∧ c.string j = some q ∧ str = q ++ q.take 1

theorem string_ne_nil (h : c.string k = some str) : str ≠ [] := by
  rintro rfl
  unfold string at h
  cases hfuel : c.entries.length with
  | zero => simp [hfuel, lzwString] at h
  | succ n =>
    rw [hfuel] at h
    simp only [lzwString] at h
    split at h
    · simp at h
    split at h
    · cases h
    split at h
    · simp at h
    · cases h

theorem Resolves.ne_nil (h : c.Resolves k str) : str ≠ [] := by
  obtain ⟨-, rfl⟩ | ⟨-, -, -, h⟩ | ⟨-, j, q, -, h, rfl⟩ := h
  · exact List.cons_ne_nil _ _
  · exact string_ne_nil h
  · simp [string_ne_nil h]

theorem Resolves.literal (hk : k < 256) : c.Resolves k [BitVec.ofNat 8 k] := .inl ⟨hk, rfl⟩

/-! ## The token of a code -/

theorem decodeLzw_literal (known : Bool) (next : Nat) (hk : k < 256) :
    decodeLzw known next k = .literal (BitVec.ofNat 8 k) := by
  simp [decodeLzw, clearCode, endCode, hk, show k ≠ 256 by omega, show k ≠ 257 by omega]

theorem decodeLzw_string {next : Nat} (hmin : 258 ≤ k) (hlt : k < next) : decodeLzw true next k = .string k := by
  simp [decodeLzw, clearCode, endCode, hlt, show ¬ k < 256 by omega, show k ≠ 256 by omega, show k ≠ 257 by omega]

theorem decodeLzw_next (hmin : 258 ≤ k) : decodeLzw true k k = .next := by
  simp [decodeLzw, clearCode, endCode, show ¬ k < 256 by omega, show k ≠ 256 by omega, show k ≠ 257 by omega]

/-- R196: a code above `next`, or of 258 and up with no previous code. -/
theorem decodeLzw_illegal (hmin : 258 ≤ k) (h : c.next < k ∨ c.prev = none) :
    decodeLzw c.prev.isSome c.next k = .illegal k := by
  have hge : ¬ k < 256 ∧ k ≠ 256 ∧ k ≠ 257 := by omega
  cases hprev : c.prev with
  | none => simp [decodeLzw, clearCode, endCode, hge]
  | some j =>
    have hlt : c.next < k := h.resolve_right (by simp [hprev])
    simp [decodeLzw, clearCode, endCode, hge, show ¬ k < c.next by omega, show k ≠ c.next by omega]

/-- R190: a code that stands for a string is taken as that string. -/
theorem accept_of_resolves (hc : c.InRange p) (h : c.Resolves k str) :
    c.accept p (decodeLzw c.prev.isSome c.next k) = c.emitString p k str := by
  obtain ⟨hk, rfl⟩ | ⟨hprev, hmin, hlt, hstr⟩ | ⟨rfl, j, q, hj, hq, rfl⟩ := h
  · rw [decodeLzw_literal _ _ hk, accept, literal, BitVec.toNat_ofNat, Nat.mod_eq_of_lt hk]
  · rw [Option.isSome_iff_ne_none.2 hprev, decodeLzw_string hmin hlt, accept, known, hstr]
  · have hbind : c.prev.bind c.string = some q := by rw [hj]; exact hq
    have hhead : q.take 1 = [q.headD 0] := by
      cases q with
      | nil => exact absurd rfl (string_ne_nil hq)
      | cons b bs => rfl
    rw [hj, Option.isSome_some, decodeLzw_next hc.firstFree_le, accept, special, hbind, hhead]

/-! ## What taking a string comes to -/

/-- R194, R195: what `grow` enters, and the width after it. -/
theorem grow_took (c : LzwDec) (b : Byte) :
    (c.grow b).br = c.br ∧ (c.grow b).expected = c.expected ∧ (c.grow b).out = c.out ∧
    (c.grow b).produced = c.produced ∧
    match c.prev with
    | none => (c.grow b).entries = c.entries ∧ (c.grow b).next = c.next ∧ (c.grow b).width = c.width
    | some j =>
      (if c.next < 4096 then (c.grow b).entries = c.entries ++ [(j, b)] ∧ (c.grow b).next = c.next + 1
        else (c.grow b).entries = c.entries ∧ (c.grow b).next = c.next) ∧
      (c.grow b).width = widen (c.grow b).next c.width := by
  unfold grow
  cases c.prev with
  | none => exact ⟨rfl, rfl, rfl, rfl, rfl, rfl, rfl⟩
  | some j =>
    by_cases hlt : c.next < lzwDictCap
    · have hlt' : c.next < 4096 := hlt
      simp [hlt, hlt']
    · have hlt' : ¬ c.next < 4096 := hlt
      simp [hlt, hlt']

section

variable (hc : c.InRange p)

include hc

/-- R190, R194, R195: a string that fits in `OUT_CAPACITY` and in `expected`. -/
theorem emitString_took (hne : str ≠ []) (hcap : c.out.length + str.length ≤ p.outCapacity)
    (hexp : c.produced + str.length ≤ c.expected) : ∃ c', c.emitString p k str = .more c' ∧ c.Took c' k str := by
  obtain ⟨b, bs, rfl⟩ := List.exists_cons_of_ne_nil hne
  rw [emitString, emitAll_eq _ _ _ hc.capacity, if_pos hcap, Progress.ofExcept_ok]
  dsimp only
  rw [if_neg (Nat.not_lt.2 hexp)]
  obtain ⟨hbr, hex, hout, hprod, hgrow⟩ :=
    grow_took { c with out := c.out ++ b :: bs, produced := c.produced + (b :: bs).length } b
  refine ⟨_, rfl, hbr, hex, hout, hprod, rfl, ?_⟩
  revert hgrow
  cases c.prev with
  | none => exact id
  | some j =>
    refine fun ⟨hentered, hwidth⟩ => ⟨?_, hwidth⟩
    by_cases hlt : c.next < 4096
    · rw [if_pos hlt] at hentered ⊢
      exact ⟨⟨b, rfl, hentered.1⟩, hentered.2⟩
    · rw [if_neg hlt] at hentered ⊢
      exact hentered

/-- R196: a string that goes past `expected`. -/
theorem emitString_mismatch (hcap : c.out.length + str.length ≤ p.outCapacity)
    (hexp : c.expected < c.produced + str.length) : c.emitString p k str = .raised .pixelCountMismatch := by
  rw [emitString, emitAll_eq _ _ _ hc.capacity, if_pos hcap, Progress.ofExcept_ok]
  exact if_pos hexp

/-- R62: a string that goes past `OUT_CAPACITY`. -/
theorem emitString_full (hcap : p.outCapacity < c.out.length + str.length) :
    c.emitString p k str = .raised .allocationFailure := by
  rw [emitString, emitAll_eq _ _ _ hc.capacity, if_neg (Nat.not_le.2 hcap), Progress.ofExcept_error]

/-- R190: a code that stands for a string that fits is taken, and the context stays in range. -/
theorem accept_took (hk : k < 2 ^ c.width) (h : c.Resolves k str) (hcap : c.out.length + str.length ≤ p.outCapacity)
    (hexp : c.produced + str.length ≤ c.expected) :
    ∃ c', c.accept p (decodeLzw c.prev.isSome c.next k) = .more c' ∧ c.Took c' k str ∧ c'.wf p = true := by
  obtain ⟨c', hmore, htook⟩ := emitString_took (k := k) hc h.ne_nil hcap hexp
  rw [← accept_of_resolves hc h] at hmore
  exact ⟨c', hmore, htook, (accept_all hc hk).of_more hmore⟩

end

end LzwDec

/-! ## The codes as instructions -/

theorem onLzwDec_read {s : State} {c : LzwDec} {ok : LzwDec → Bool} (ha : s.active = some (.lzwDec c)) (hok : ok c = true)
    (f : LzwDec → Progress LzwDec) : onLzwDec s ok f = settle .lzwDec .lzwDec s (f c) := by
  simp [onLzwDec, ha, hok]

/-- Settles O27: each of the three is its own turn of the decoder; the illegal code is read so (`LzwDec.decodeLzw_illegal`). -/
theorem lzwClearEndAndIllegalCodes : Obligations.LzwClearEndAndIllegalCodes := by
  intro s c ha
  have hend : exec .lzwEnd s = settle .lzwDec .lzwDec s c.finish := onLzwDec_read ha rfl LzwDec.finish
  refine ⟨onLzwDec_read ha rfl LzwDec.clear, fun heq => ?_, fun hne => ?_, fun k hmin hk h => ?_⟩
  · rw [hend, LzwDec.finish, if_neg (not_not.2 heq)]
    rfl
  · rw [hend, LzwDec.finish, if_pos hne]
    exact settle_raised_ended _ rfl _
  · have hreads : c.reads k (.illegal k) = true := by simp [LzwDec.reads, hk, LzwDec.decodeLzw_illegal hmin h]
    exact (onLzwDec_read (ok := fun c => c.reads k (.illegal k)) ha hreads fun _ => LzwDec.illegal).trans
      (settle_raised_ended _ rfl _)

/-- Settles O25: the instruction is the token of its code (`exec_lzwTok`), which is taken as its string. -/
theorem lzwCodesResolveToStrings : Obligations.LzwCodesResolveToStrings := by
  intro s c i k str ha hwf hi
  have hc := LzwDec.wf_iff.1 hwf
  obtain ⟨rfl, hk, hres⟩ : i = (decodeLzw c.prev.isSome c.next k).instr ∧ k < 2 ^ c.width ∧ c.Resolves k str := by
    obtain ⟨rfl, hlt, rfl⟩ | ⟨rfl, hprev, hmin, hlt, hk, hstr⟩ | ⟨rfl, rfl, hk, j, q, hj, hq, rfl⟩ := hi
    · have hpow : 2 ^ 9 ≤ 2 ^ c.width := Nat.pow_le_pow_right (by decide) hc.widthGe
      exact ⟨by rw [LzwDec.decodeLzw_literal _ _ hlt]; rfl, by omega, .literal hlt⟩
    · refine ⟨?_, hk, .inr (.inl ⟨hprev, hmin, hlt, hstr⟩)⟩
      rw [Option.isSome_iff_ne_none.2 hprev, LzwDec.decodeLzw_string hmin hlt]
      rfl
    · refine ⟨?_, hk, .inr (.inr ⟨rfl, j, q, hj, hq, rfl⟩)⟩
      rw [hj, Option.isSome_some, LzwDec.decodeLzw_next hc.firstFree_le]
      rfl
  have hexec := exec_lzwTok ha hk
  refine ⟨fun hcap => ⟨fun hexp => ?_, fun hexp => ?_⟩, fun hcap => ?_⟩
  · obtain ⟨c', hmore, htook⟩ := LzwDec.accept_took hc hk hres hcap hexp
    exact ⟨c', by rw [hexec, hmore]; rfl, htook⟩
  · rw [hexec, LzwDec.accept_of_resolves hc hres, LzwDec.emitString_mismatch hc hcap hexp]
    exact settle_raised_ended _ rfl _
  · rw [hexec, LzwDec.accept_of_resolves hc hres, LzwDec.emitString_full hc hcap]
    exact settle_raised_ended _ rfl _

end Sys2Proof.Machine
end

section
/-! The LZW dictionary by the strings of its codes from 258 up. A dictionary whose strings continue strings it knows
(`lzwClosed`) stores an entry for each of them (`lzwEntries`): the code of the string but for its last byte, and that byte. The
encoder finds a code by its entry (`lzwClosed.idxOf_entries`), the decoder an entry by its code
(`lzwClosed.entries_getElem?`). -/

namespace Sys2Proof.Machine

/-! ## Code widths -/

/-- R184: the width grows as the code it is for does. -/
theorem widen_lzwWidth (k : Nat) : widen (k + 1) (lzwWidth k) = lzwWidth (k + 1) := by
  unfold widen lzwWidth lzwMaxBits
  split_ifs <;> omega

theorem lzwWidth_bounds (k : Nat) : 9 ≤ lzwWidth k ∧ lzwWidth k ≤ 12 := by
  unfold lzwWidth
  split_ifs <;> decide

/-- R185: the width of the clear where the table is full. -/
theorem lzwWidth_full {k : Nat} (h : 4096 ≤ k) : lzwWidth k = 12 := by
  unfold lzwWidth
  rw [if_neg (by omega), if_neg (by omega), if_neg (by omega)]

/-- R184, D33: the codes of the width go past `k`. -/
theorem lt_two_pow_lzwWidth {k : Nat} (h : k < 4096) : k < 2 ^ lzwWidth k := by
  unfold lzwWidth
  split_ifs <;> assumption

/-! ## The strings a dictionary knows -/

/-- R182: a dictionary knows every single byte and its entries. -/
def lzwKnown (entries : List (List Byte)) (w : List Byte) : Prop := w ≠ [] ∧ (w.length = 1 ∨ w ∈ entries)

/-- R183: every entry is a known string with a byte after it. -/
def lzwClosed (entries : List (List Byte)) : Prop := ∀ s ∈ entries, 2 ≤ s.length ∧ lzwKnown entries s.dropLast

variable {entries : List (List Byte)} {w : List Byte} {b : Byte}

theorem lzwKnown_byte (entries : List (List Byte)) (b : Byte) : lzwKnown entries [b] := ⟨List.cons_ne_nil _ _, .inl rfl⟩

theorem lzwKnown.append (h : lzwKnown entries w) (s : List Byte) : lzwKnown (entries ++ [s]) w :=
  ⟨h.1, h.2.imp_right fun hmem => List.mem_append_left _ hmem⟩

theorem lzwKnown.mem (h : lzwKnown entries w) (hlen : 2 ≤ w.length) : w ∈ entries := h.2.resolve_left (by omega)

theorem lzwClosed_nil : lzwClosed [] := by simp [lzwClosed]

theorem lzwClosed.append (hclosed : lzwClosed entries) (hw : lzwKnown entries w) (b : Byte) :
    lzwClosed (entries ++ [w ++ [b]]) := by
  intro s hs
  obtain hs | hs := List.mem_append.1 hs
  · obtain ⟨hlen, hknown⟩ := hclosed s hs
    exact ⟨hlen, hknown.append _⟩
  · obtain rfl := List.mem_singleton.1 hs
    have hpos : 0 < w.length := List.length_pos_iff.2 hw.1
    rw [List.dropLast_concat]
    exact ⟨by simp; omega, hw.append _⟩

/-- R182: a dictionary that knows a string knows its beginnings. -/
theorem lzwClosed.known_prefix (hclosed : lzwClosed entries) {v : List Byte} (hv : v ≠ []) {t : List Byte} :
    lzwKnown entries (v ++ t) → lzwKnown entries v := by
  induction t using List.reverseRecOn with
  | nil => simp
  | append_singleton t b ih =>
    intro h
    have hpos : 0 < v.length := List.length_pos_iff.2 hv
    have hmem := h.mem (by simp; omega)
    obtain ⟨-, hknown⟩ := hclosed _ hmem
    rw [← List.append_assoc, List.dropLast_concat] at hknown
    exact ih hknown

/-- R182: where the next byte does not extend the string, it is the longest at its place. -/
theorem lzwClosed.longest (hclosed : lzwClosed entries) (hw : lzwKnown entries w) (hb : w ++ [b] ∉ entries)
    (tail : List Byte) : lzwLongest entries w (b :: tail) := by
  refine ⟨hw.1, hw.2, fun n hlt hle hmem => hb ?_⟩
  have hpos : 0 < w.length := List.length_pos_iff.2 hw.1
  obtain ⟨m, rfl⟩ : ∃ m, n = w.length + (m + 1) := ⟨n - w.length - 1, by omega⟩
  rw [List.take_length_add_append, List.take_succ_cons, List.append_cons] at hmem
  exact (hclosed.known_prefix (by simp) ⟨by simp, .inr hmem⟩).mem (by simp; omega)

/-! ## The codes of the strings -/

theorem lzwCodeOf_byte (entries : List (List Byte)) (b : Byte) : lzwCodeOf entries [b] = b.toNat := rfl

theorem lzwCodeOf_of_two_le (h : 2 ≤ w.length) : lzwCodeOf entries w = 258 + entries.idxOf w :=
  if_neg (by omega)

/-- R183: a new entry leaves the codes of the strings known before it as they are. -/
theorem lzwCodeOf_append (hw : lzwKnown entries w) (s : List Byte) : lzwCodeOf (entries ++ [s]) w = lzwCodeOf entries w := by
  unfold lzwCodeOf
  split
  · rfl
  · rename_i hlen
    rw [List.idxOf_append_of_mem (hw.2.resolve_left hlen)]

/-- R183: the code of a new entry is the next. -/
theorem lzwCodeOf_new (hlen : 2 ≤ w.length) (hw : w ∉ entries) : lzwCodeOf (entries ++ [w]) w = 258 + entries.length := by
  rw [lzwCodeOf_of_two_le hlen, List.idxOf_append_of_notMem hw]
  simp

theorem lzwCodeOf_lt (hw : lzwKnown entries w) : lzwCodeOf entries w < 258 + entries.length := by
  unfold lzwCodeOf
  split
  · omega
  · rename_i hlen
    have := List.idxOf_lt_length_iff.2 (hw.2.resolve_left hlen)
    omega

/-- R33: different strings have different codes. -/
theorem lzwCodeOf_inj {v : List Byte} (hv : lzwKnown entries v) (hw : lzwKnown entries w)
    (h : lzwCodeOf entries v = lzwCodeOf entries w) : v = w := by
  unfold lzwCodeOf at h
  split at h <;> rename_i hlv <;> split at h <;> rename_i hlw
  · obtain ⟨a, rfl⟩ := List.length_eq_one_iff.1 hlv
    obtain ⟨b, rfl⟩ := List.length_eq_one_iff.1 hlw
    exact congrArg (fun b => [b]) (BitVec.eq_of_toNat_eq h)
  · omega
  · omega
  · exact (List.idxOf_inj (hv.2.resolve_left hlv)).1 (Nat.add_left_cancel h)

/-! ## The entries -/

/-- R32, R33: the entry of each string: the code of the string but for its last byte, and that byte. -/
def lzwEntries (entries : List (List Byte)) : List (Nat × Byte) :=
  entries.map fun s => (lzwCodeOf entries s.dropLast, s.getLastD 0)

@[simp] theorem lzwEntries_length (entries : List (List Byte)) : (lzwEntries entries).length = entries.length := by
  simp [lzwEntries]

/-- R183, R194: the entry of a known string with a byte after it. -/
theorem lzwClosed.entries_append (hclosed : lzwClosed entries) (hw : lzwKnown entries w) (b : Byte) :
    lzwEntries (entries ++ [w ++ [b]]) = lzwEntries entries ++ [(lzwCodeOf entries w, b)] := by
  rw [lzwEntries, List.map_append, List.map_singleton, List.dropLast_concat, lzwCodeOf_append hw, List.getLastD_concat]
  congr 1
  exact List.map_congr_left fun s hs => by rw [lzwCodeOf_append (hclosed s hs).2]

/-- R43: the entry stands for its string alone. -/
theorem lzwClosed.entry_eq_iff (hclosed : lzwClosed entries) (hw : lzwKnown entries w) {s : List Byte} (hs : s ∈ entries) :
    (lzwCodeOf entries s.dropLast, s.getLastD 0) = (lzwCodeOf entries w, b) ↔ s = w ++ [b] := by
  constructor
  · intro h
    obtain ⟨hlen, hknown⟩ := hclosed s hs
    obtain ⟨v, x, rfl⟩ := (List.eq_nil_or_concat' s).resolve_left (List.ne_nil_of_length_pos (by omega))
    rw [List.dropLast_concat] at h hknown
    rw [List.getLastD_concat] at h
    obtain ⟨hcode, rfl⟩ := Prod.mk.inj h
    rw [lzwCodeOf_inj hknown hw hcode]
  · rintro rfl
    rw [List.dropLast_concat, List.getLastD_concat]

theorem lzwClosed.mem_entries_iff (hclosed : lzwClosed entries) (hw : lzwKnown entries w) :
    (lzwCodeOf entries w, b) ∈ lzwEntries entries ↔ w ++ [b] ∈ entries := by
  simp only [lzwEntries, List.mem_map]
  constructor
  · rintro ⟨s, hs, heq⟩
    rwa [← (hclosed.entry_eq_iff hw hs).1 heq]
  · exact fun hmem => ⟨_, hmem, (hclosed.entry_eq_iff hw hmem).2 rfl⟩

/-- A map that takes no other element of the list to the value of `a` keeps its place. -/
theorem idxOf_map_of_eq_iff {α β : Type} [BEq α] [LawfulBEq α] [BEq β] [LawfulBEq β] {f : α → β} {a : α} {y : β}
    {l : List α} (h : ∀ x ∈ l, f x = y ↔ x = a) : (l.map f).idxOf y = l.idxOf a := by
  induction l with
  | nil => rfl
  | cons x xs ih =>
    obtain ⟨hx, hxs⟩ := List.forall_mem_cons.1 h
    have heq : (f x == y) = (x == a) := by rw [Bool.eq_iff_iff, beq_iff_eq, beq_iff_eq, hx]
    rw [List.map_cons, List.idxOf_cons, List.idxOf_cons, heq, ih hxs]

/-- R43: an entry stands at the place of its string. -/
theorem lzwClosed.idxOf_entries (hclosed : lzwClosed entries) (hw : lzwKnown entries w) :
    (lzwEntries entries).idxOf (lzwCodeOf entries w, b) = entries.idxOf (w ++ [b]) :=
  idxOf_map_of_eq_iff fun _ hs => hclosed.entry_eq_iff hw hs

/-- R43: a search by key finds the first pair with the key. -/
theorem find?_zipIdx {α : Type} [BEq α] [LawfulBEq α] (l : List α) (n : Nat) (key : α) :
    ((l.zipIdx n).find? fun r => r.1 == key).map (·.2) = if key ∈ l then some (n + l.idxOf key) else none := by
  induction l generalizing n with
  | nil => rfl
  | cons x xs ih =>
    rw [List.zipIdx_cons, List.find?_cons, List.idxOf_cons]
    by_cases h : x = key
    · simp [h]
    · rw [show (x == key) = false from beq_eq_false_iff_ne.2 h]
      simp only [ih, List.mem_cons, Ne.symm h, false_or, cond_false]
      split
      · rw [Nat.add_right_comm, Nat.add_assoc]
      · rfl

/-- R32, R33: what the code of an assigned string finds. -/
theorem lzwClosed.entries_getElem? (hclosed : lzwClosed entries) (hw : lzwKnown entries w) (hmem : w ++ [b] ∈ entries) :
    (lzwEntries entries)[entries.idxOf (w ++ [b])]? = some (lzwCodeOf entries w, b) := by
  rw [← hclosed.idxOf_entries hw]
  exact List.getElem?_idxOf ((hclosed.mem_entries_iff hw).2 hmem)

end Sys2Proof.Machine
end

section
/-! O60 and O29. The encoder's phrases (`lzwGreedy`) are the longest matches (`lzwClosed.phrases_greedy`); from a place inside
the input (`LzwEnc.Matching`) its turns come to one write of the bits of their codes and the flush
(`LzwEnc.Matching.runLoop_eq`). -/

namespace Sys2Proof.Machine

/-! ## The phrases -/

/-- R183, R185: the dictionary after the phrase `w` with the byte `b` after it. -/
def lzwGrown (entries : List (List Byte)) (w : List Byte) (b : Byte) : List (List Byte) :=
  if 258 + entries.length < 4096 then entries ++ [w ++ [b]] else []

/-- R182: the phrases of the string matched so far and the bytes after it. -/
def lzwGreedy (entries : List (List Byte)) (w : List Byte) : List Byte → List (List Byte)
  | [] => [w]
  | b :: bs =>
    if w ++ [b] ∈ entries then lzwGreedy entries (w ++ [b]) bs else w :: lzwGreedy (lzwGrown entries w b) [b] bs

/-- R182, R187: the phrases of an input. -/
def lzwPhrasesOf : List Byte → List (List Byte)
  | [] => []
  | b :: bs => lzwGreedy [] [b] bs

theorem lzwEntered_of_flatten {entries : List (List Byte)} {w : List Byte} {b : Byte} {bs : List Byte}
    {rest : List (List Byte)} (h : rest.flatten = b :: bs) : lzwEntered entries w rest = lzwGrown entries w b := by
  rw [lzwEntered, h]
  rfl

theorem lzwGreedy_flatten (entries : List (List Byte)) (w bytes : List Byte) :
    (lzwGreedy entries w bytes).flatten = w ++ bytes := by
  induction bytes generalizing entries w with
  | nil => simp [lzwGreedy]
  | cons b bs ih =>
    rw [lzwGreedy]
    split
    · rw [ih, List.append_assoc, List.singleton_append]
    · rw [List.flatten_cons, ih, List.singleton_append]

theorem lzwPhrasesOf_flatten (input : List Byte) : (lzwPhrasesOf input).flatten = input := by
  cases input with
  | nil => rfl
  | cons b bs => exact lzwGreedy_flatten _ _ _

theorem lzwClosed.grown {entries : List (List Byte)} {w : List Byte} (hclosed : lzwClosed entries) (hw : lzwKnown entries w)
    (b : Byte) : lzwClosed (lzwGrown entries w b) := by
  unfold lzwGrown
  split
  · exact hclosed.append hw b
  · exact lzwClosed_nil

/-- R182: each phrase is the longest match at its place. -/
theorem lzwClosed.phrases_greedy {entries : List (List Byte)} {w bytes : List Byte} (hclosed : lzwClosed entries)
    (hw : lzwKnown entries w) : lzwPhrases entries (lzwGreedy entries w bytes) := by
  induction bytes generalizing entries w with
  | nil => exact ⟨⟨hw.1, hw.2, fun n hlt hle => by simp at hle; omega⟩, trivial⟩
  | cons b bs ih =>
    rw [lzwGreedy]
    split
    · rename_i hmem
      exact ih hclosed ⟨by simp, .inr hmem⟩
    · rename_i hnot
      have hflatten := lzwGreedy_flatten (lzwGrown entries w b) [b] bs
      refine ⟨?_, ?_⟩
      · rw [hflatten]
        exact hclosed.longest hw hnot bs
      · rw [lzwEntered_of_flatten hflatten]
        exact ih (hclosed.grown hw b) (lzwKnown_byte _ b)

theorem lzwPhrases_phrasesOf (input : List Byte) : lzwPhrases [] (lzwPhrasesOf input) := by
  cases input with
  | nil => trivial
  | cons b bs => exact lzwClosed_nil.phrases_greedy (lzwKnown_byte [] b)

/-! ## The bits of the codes -/

/-- R86: codes in their widths, one after the other. -/
def lzwCodeBits (codes : List (Nat × Nat)) : List Bool := codes.flatMap fun k => lsbBits k.2 k.1

theorem lzwCodeBits_cons (k w : Nat) (codes : List (Nat × Nat)) :
    lzwCodeBits ((k, w) :: codes) = lsbBits w k ++ lzwCodeBits codes := List.flatMap_cons

theorem lzwCodeBits_append (codes codes' : List (Nat × Nat)) :
    lzwCodeBits (codes ++ codes') = lzwCodeBits codes ++ lzwCodeBits codes' := List.flatMap_append

theorem lzwBits_eq (phrases : List (List Byte)) : lzwBits phrases = lsbBits 9 256 ++ lzwCodeBits (lzwCodes [] phrases) := rfl

/-- R185: the `CLEAR_CODE` after a phrase, where the table is full. -/
def lzwClears (entries : List (List Byte)) : List (Nat × Nat) :=
  if 258 + entries.length < 4096 then [] else [(256, 12)]

/-- R181, R186: the codes after that of the phrase `w`. -/
def lzwCodesAfter (entries : List (List Byte)) (w : List Byte) : List (List Byte) → List (Nat × Nat)
  | [] => [(257, lzwWidth (258 + entries.length))]
  | x :: rest => lzwClears entries ++ lzwCodes (lzwEntered entries w (x :: rest)) (x :: rest)

theorem lzwCodes_cons (entries : List (List Byte)) (w : List Byte) (rest : List (List Byte)) :
    lzwCodes entries (w :: rest) =
      (lzwCodeOf entries w, lzwWidth (257 + entries.length)) :: lzwCodesAfter entries w rest := by
  cases rest <;> rfl

theorem lzwCodesAfter_of_flatten {entries rest : List (List Byte)} {w : List Byte} {b : Byte} {bs : List Byte}
    (h : rest.flatten = b :: bs) :
    lzwCodesAfter entries w rest = lzwClears entries ++ lzwCodes (lzwGrown entries w b) rest := by
  rw [← lzwEntered_of_flatten h]
  cases rest with
  | nil => cases h
  | cons x rest => rfl

/-! ## The encoder inside its input -/

theorem BitWriter.putBits_append_bind {α : Type} (cap : Nat) (b : BitWriter) (xs ys : List Bool)
    (f : BitWriter → Except ErrorKind α) :
    (b.putBits cap (xs ++ ys) >>= f) = (b.putBits cap xs >>= fun b' => b'.putBits cap ys >>= f) := by
  rw [putBits_append]
  cases b.putBits cap xs <;> rfl

/-- What a loop comes to whose turn goes on from a value or raises an error. -/
theorem runLoop_ofExcept {α β : Type} {turn : α → Progress α} {c : α} {f : β → α} {x : Except ErrorKind β}
    (h : turn c = Progress.ofExcept (fun a => .more (f a)) x) (fuel : Nat) :
    runLoop turn (fuel + 1) c = Progress.ofExcept (fun a => runLoop turn fuel (f a)) x := by
  cases x with
  | ok a => exact runLoop_more h
  | error e => exact runLoop_raised h

namespace LzwEnc

variable {p : Params} {c : LzwEnc} {entries : List (List Byte)} {w bytes : List Byte} {b : Byte} {bs : List Byte}

theorem emitCode_eq (ho : c.bw.order = .lsb) (k : Nat) :
    c.emitCode p k = (c.bw.putBits p.outCapacity (lsbBits c.width k) >>= fun bw => .ok { c with bw := bw }) := by
  rw [emitCode, BitWriter.writeBits, ho, streamBits]
  cases c.bw.putBits p.outCapacity (lsbBits c.width k) <;> rfl

theorem emitCode_flush (ho : c.bw.order = .lsb) (k : Nat) :
    (c.emitCode p k >>= fun c' => c'.bw.flush p.outCapacity) =
      (c.bw.putBits p.outCapacity (lsbBits c.width k) >>= BitWriter.flush p.outCapacity) := by
  rw [emitCode_eq ho]
  cases c.bw.putBits p.outCapacity (lsbBits c.width k) <;> rfl

/-- R31, R182, R184: the encoder between two bytes of its input: the strings of its dictionary, the string matched so far and
the bytes to come. -/
structure Matching (c : LzwEnc) (entries : List (List Byte)) (w bytes : List Byte) : Prop where
  order : c.bw.order = .lsb
  dict : c.dict = (lzwEntries entries).zipIdx 258
  next : c.next = 258 + entries.length
  width : c.width = lzwWidth (257 + entries.length)
  pre : c.pre = some (lzwCodeOf entries w)
  closed : lzwClosed entries
  known : lzwKnown entries w
  rest : c.input.drop c.i = bytes

/-- R183, R185: the context after the mismatch of a key, with its codes written. -/
def restarted (c : LzwEnc) (key : Nat × Byte) (bw : BitWriter) : LzwEnc :=
  if c.next < lzwDictCap then LzwEnc.insert (widened { c with bw := bw, pre := some key.2.toNat }) key
  else resetDict { c with bw := bw, pre := some key.2.toNat }

@[simp] theorem restarted_bw (c : LzwEnc) (key : Nat × Byte) (bw : BitWriter) : (c.restarted key bw).bw = bw := by
  unfold restarted
  split <;> rfl

namespace Matching

theorem lookup (h : c.Matching entries w bytes) (b : Byte) :
    c.lookup (lzwCodeOf entries w, b) = if w ++ [b] ∈ entries then some (lzwCodeOf entries (w ++ [b])) else none := by
  have hlen : 2 ≤ (w ++ [b]).length := by
    have hpos : 0 < w.length := List.length_pos_iff.2 h.known.1
    simp only [List.length_append, List.length_singleton]
    omega
  rw [LzwEnc.lookup, h.dict, find?_zipIdx, h.closed.idxOf_entries h.known, lzwCodeOf_of_two_le hlen]
  simp only [h.closed.mem_entries_iff h.known]

theorem getElem?_cursor (h : c.Matching entries w (b :: bs)) : c.input[c.i]? = some b := by
  rw [← List.head?_drop, h.rest]
  rfl

theorem drop_next (h : c.Matching entries w (b :: bs)) : c.input.drop (c.i + 1) = bs := by
  rw [← List.drop_drop, h.rest]
  rfl

/-- R182: the next byte extends the string matched so far. -/
theorem advance_match (h : c.Matching entries w (b :: bs)) (hmem : w ++ [b] ∈ entries) :
    ∃ c', c.advance p = .more c' ∧ c'.bw = c.bw ∧ c'.Matching entries (w ++ [b]) bs := by
  have hbyte : c.byte p b = .ok { c with pre := some (lzwCodeOf entries (w ++ [b])) } := by
    simp only [LzwEnc.byte, h.pre, h.lookup, if_pos hmem]
  refine ⟨{ c with pre := some (lzwCodeOf entries (w ++ [b])), i := c.i + 1 }, ?_, rfl, ?_⟩
  · simp only [advance, h.getElem?_cursor, hbyte, Progress.ofExcept_ok]
  · exact { h with pre := rfl, known := ⟨by simp, .inr hmem⟩, rest := h.drop_next }

/-- R184: the width after a code. -/
theorem widen_width (h : c.Matching entries w bytes) : widen c.next c.width = lzwWidth (258 + entries.length) := by
  rw [h.next, h.width, show 258 + entries.length = 257 + entries.length + 1 by omega, widen_lzwWidth]

/-- R183, R185: once the code of the string is written, the byte is entered, or the full table cleared. -/
theorem grow_eq (h : c.Matching entries w bytes) (k : Nat) (b : Byte) :
    (c.widened.grow p (k, b) >>= fun c' => .ok { c' with pre := some b.toNat }) =
      (c.bw.putBits p.outCapacity (lzwCodeBits (lzwClears entries)) >>= fun bw => .ok (c.restarted (k, b) bw)) := by
  unfold LzwEnc.grow lzwClears LzwEnc.restarted
  rw [← h.next]
  by_cases hroom : c.next < 4096
  · rw [if_pos (show c.widened.next < lzwDictCap from hroom), if_pos hroom]
    simp only [if_pos (show c.next < lzwDictCap from hroom)]
    rfl
  · have hwidth : c.widened.width = 12 := h.widen_width.trans (lzwWidth_full (h.next ▸ Nat.not_lt.1 hroom))
    rw [if_neg (show ¬ c.widened.next < lzwDictCap from hroom), if_neg hroom,
      emitCode_eq (c := c.widened) h.order, hwidth]
    simp only [if_neg (show ¬ c.next < lzwDictCap from hroom), lzwCodeBits, List.flatMap_singleton]
    rw [show c.widened.bw = c.bw from rfl, clearCode]
    cases c.bw.putBits p.outCapacity (lsbBits 12 256) <;> rfl

/-- R182 to R185: the next byte does not extend the string: its code is written, and a clear where the table is full. -/
theorem byte_mismatch (h : c.Matching entries w (b :: bs)) (hnot : w ++ [b] ∉ entries) :
    c.byte p b = (c.bw.putBits p.outCapacity (lsbBits c.width (lzwCodeOf entries w) ++ lzwCodeBits (lzwClears entries)) >>=
      fun bw => .ok (c.restarted (lzwCodeOf entries w, b) bw)) := by
  have hbyte : c.byte p b = (c.emitCode p (lzwCodeOf entries w) >>= fun c₁ =>
      c₁.widened.grow p (lzwCodeOf entries w, b) >>= fun c₂ => .ok { c₂ with pre := some b.toNat }) := by
    simp only [LzwEnc.byte, h.pre, h.lookup, if_neg hnot]
    rfl
  rw [hbyte, emitCode_eq h.order, BitWriter.putBits_append_bind]
  cases hput : c.bw.putBits p.outCapacity (lsbBits c.width (lzwCodeOf entries w)) with
  | error e => rfl
  | ok bw =>
    have hwritten : Matching { c with bw := bw } entries w (b :: bs) :=
      { h with order := (BitWriter.putBits_order hput).trans h.order }
    exact hwritten.grow_eq (lzwCodeOf entries w) b

/-- R183, R185: the dictionary after a mismatch, and the match restarted with the byte. -/
theorem restarted (h : c.Matching entries w (b :: bs)) {bw : BitWriter} (ho : bw.order = .lsb) :
    Matching { c.restarted (lzwCodeOf entries w, b) bw with i := c.i + 1 } (lzwGrown entries w b) [b] bs := by
  unfold lzwGrown LzwEnc.restarted
  by_cases hroom : 258 + entries.length < 4096
  · have hroom' : c.next < lzwDictCap := h.next ▸ hroom
    rw [if_pos hroom, if_pos hroom']
    exact {
      order := ho
      dict := by
        rw [h.closed.entries_append h.known, List.zipIdx_append, lzwEntries_length, ← h.dict, ← h.next]
        rfl
      next := by simp only [insert, widened, h.next, List.length_append, List.length_singleton]; omega
      width := by
        rw [List.length_append, List.length_singleton, ← Nat.add_assoc, Nat.add_right_comm, ← h.widen_width]
        rfl
      pre := rfl
      closed := h.closed.append h.known b
      known := lzwKnown_byte _ b
      rest := h.drop_next }
  · have hfull : ¬ c.next < lzwDictCap := h.next ▸ hroom
    rw [if_neg hroom, if_neg hfull]
    exact {
      order := ho, dict := rfl, next := rfl, width := rfl, pre := rfl
      closed := lzwClosed_nil, known := lzwKnown_byte _ b, rest := h.drop_next }

/-- R182 to R185: the turn of a byte that does not extend the string. -/
theorem advance_mismatch (h : c.Matching entries w (b :: bs)) (hnot : w ++ [b] ∉ entries) :
    c.advance p = Progress.ofExcept (fun bw => .more { c.restarted (lzwCodeOf entries w, b) bw with i := c.i + 1 })
      (c.bw.putBits p.outCapacity
        (lsbBits (lzwWidth (257 + entries.length)) (lzwCodeOf entries w) ++ lzwCodeBits (lzwClears entries))) := by
  rw [← h.width]
  simp only [advance, h.getElem?_cursor, h.byte_mismatch hnot]
  cases c.bw.putBits p.outCapacity (lsbBits c.width (lzwCodeOf entries w) ++ lzwCodeBits (lzwClears entries)) <;> rfl

/-- R186: the code of the last phrase and `END_CODE`. -/
theorem endOut_eq (h : c.Matching entries w []) :
    c.endOut p =
      (c.bw.putBits p.outCapacity (lzwCodeBits (lzwCodes entries [w])) >>= BitWriter.flush p.outCapacity) := by
  have hend : c.endOut p = (c.emitCode p (lzwCodeOf entries w) >>= fun c₁ =>
      c₁.widened.emitCode p endCode >>= fun c₂ => c₂.bw.flush p.outCapacity) := by
    simp only [endOut, h.pre]
    cases c.emitCode p (lzwCodeOf entries w) <;> rfl
  rw [hend, emitCode_eq h.order, lzwCodes, lzwCodeBits_cons, BitWriter.putBits_append_bind, ← h.width]
  cases hput : c.bw.putBits p.outCapacity (lsbBits c.width (lzwCodeOf entries w)) with
  | error e => rfl
  | ok bw =>
    have ho : bw.order = .lsb := (BitWriter.putBits_order hput).trans h.order
    have hwidth : (widened { c with bw := bw }).width = lzwWidth (258 + entries.length) := h.widen_width
    rw [ok_bind, ok_bind, emitCode_flush (c := widened { c with bw := bw }) ho, hwidth, lzwCodeBits, List.flatMap_singleton]
    rfl

end Matching

theorem runLoop_end (hend : c.input[c.i]? = none) (fuel : Nat) :
    runLoop (advance p) (fuel + 1) c = Progress.ofExcept (fun out => .done c .ok (.bytes out)) (c.endOut p) := by
  have hturn : c.advance p = Progress.ofExcept (fun out => .done c .ok (.bytes out)) (c.endOut p) := by
    simp only [advance, hend]
  cases h : c.endOut p with
  | ok out => rw [h] at hturn; exact runLoop_done hturn
  | error e => rw [h] at hturn; exact runLoop_raised hturn

/-- R181 to R187: the turns of the encoder write the codes of the phrases and flush. -/
theorem Matching.runLoop_eq {fuel : Nat} (h : c.Matching entries w bytes) (hf : bytes.length < fuel) :
    ∃ d, runLoop (advance p) fuel c = Progress.ofExcept (fun out => .done d .ok (.bytes out))
      (c.bw.putBits p.outCapacity (lzwCodeBits (lzwCodes entries (lzwGreedy entries w bytes))) >>=
        BitWriter.flush p.outCapacity) := by
  induction bytes generalizing c entries w fuel with
  | nil =>
    obtain ⟨n, rfl⟩ := Nat.exists_eq_add_one.2 (Nat.zero_lt_of_lt hf)
    have hend : c.input[c.i]? = none := by rw [← List.head?_drop, h.rest]; rfl
    refine ⟨c, ?_⟩
    rw [lzwGreedy, ← h.endOut_eq, runLoop_end hend]
  | cons b bs ih =>
    obtain ⟨n, rfl⟩ := Nat.exists_eq_add_one.2 (Nat.zero_lt_of_lt hf)
    have hn : bs.length < n := by simpa using hf
    rw [lzwGreedy]
    by_cases hmem : w ++ [b] ∈ entries
    · obtain ⟨c', hmore, hbw, hc'⟩ := h.advance_match hmem
      rw [if_pos hmem, runLoop_more hmore, ← hbw]
      exact ih hc' hn
    · rw [if_neg hmem, runLoop_ofExcept (h.advance_mismatch hmem), lzwCodes_cons,
        lzwCodesAfter_of_flatten (lzwGreedy_flatten (lzwGrown entries w b) [b] bs), lzwCodeBits_cons, lzwCodeBits_append,
        ← List.append_assoc, BitWriter.putBits_append_bind]
      cases hput : c.bw.putBits p.outCapacity
        (lsbBits (lzwWidth (257 + entries.length)) (lzwCodeOf entries w) ++ lzwCodeBits (lzwClears entries)) with
      | error e => exact ⟨c, rfl⟩
      | ok bw =>
        have hrestarted := h.restarted ((BitWriter.putBits_order hput).trans h.order)
        obtain ⟨d, hd⟩ := ih hrestarted hn
        refine ⟨d, ?_⟩
        rw [Progress.ofExcept_ok, ok_bind, hd, restarted_bw]

/-- R181 to R187: the operation is one write of the bits of the code stream, and the flush. -/
theorem run_eq (p : Params) (input : List Byte) :
    ∃ d, run p input = Progress.ofExcept (fun out => .done d .ok (.bytes out))
      ((BitWriter.fresh .lsb).putBits p.outCapacity (lzwBits (lzwPhrasesOf input)) >>= BitWriter.flush p.outCapacity) := by
  rw [run, start, emitCode_eq rfl, lzwBits_eq, BitWriter.putBits_append_bind]
  show ∃ d, Progress.ofExcept _ ((BitWriter.fresh .lsb).putBits p.outCapacity (lsbBits 9 256) >>= _) = _
  cases hput : (BitWriter.fresh .lsb).putBits p.outCapacity (lsbBits 9 256) with
  | error e => exact ⟨⟨BitWriter.fresh .lsb, [], 258, 9, none, input, 0⟩, rfl⟩
  | ok bw =>
    have ho : bw.order = .lsb := BitWriter.putBits_order hput
    rw [ok_bind, ok_bind, Progress.ofExcept_ok]
    cases input with
    | nil =>
      refine ⟨_, (runLoop_end rfl 0).trans (congrArg _ ?_)⟩
      exact emitCode_flush ho endCode
    | cons b bs =>
      have hfirst : Matching ⟨bw, [], 258, 9, some b.toNat, b :: bs, 1⟩ [] [b] bs :=
        { order := ho, dict := rfl, next := rfl, width := rfl, pre := rfl, closed := lzwClosed_nil
          known := lzwKnown_byte [] b, rest := rfl }
      obtain ⟨d, hd⟩ := hfirst.runLoop_eq (p := p) (Nat.lt_succ_self bs.length)
      exact ⟨d, (runLoop_more (turn := advance p) rfl).trans hd⟩

end LzwEnc

/-! ## The operation -/

@[simp] theorem BitWriter.bits_fresh (o : BitOrder) : (fresh o).bits = [] := rfl

/-- R54, R62, R104: a bit string that a fresh writer is given and flushes, where it fits. -/
theorem BitWriter.fresh_putBits_flush {p : Params} (o : BitOrder) {bits : List Bool}
    (hcap : (bits.length + 7) / 8 ≤ p.outCapacity) :
    ∃ out, ((fresh o).putBits p.outCapacity bits >>= flush p.outCapacity) = .ok out ∧ packs o bits out := by
  obtain ⟨b, hput, ho, hwf, hbits⟩ := putBits_appends (fresh_wf p o) (xs := bits) (by simp; omega)
  rw [bits_fresh, List.nil_append] at hbits
  obtain ⟨out, hflush, hpacks⟩ := flush_packs hwf (by rwa [hbits])
  rw [ho, hbits] at hpacks
  exact ⟨out, by rw [hput, ok_bind, hflush], hpacks⟩

section

variable {s : State} (hs : s.ready = true)

include hs

/-- R281: an operation with a loop that returns, and has changed nothing else. -/
theorem operation_loop_done {α : Type} {u : Session} {mk : α → Active} {run : Params → Progress α} {c : α} {st : Status}
    {r : Result} (h : run s.params = .done c st r) :
    operation u s (fun s => settle u mk (s.openSession u) (run s.params)) = .next (s.answered u st r) := by
  rw [operation_ready hs, State.popDraw_params, h, settle_done, State.openSession_finish,
    State.popDraw_finish (State.active_of_ready hs)]

/-- R285: an operation with a loop that raises an error, of a unit whose session is its operation. -/
theorem operation_loop_raised {α : Type} {u : Session} {mk : α → Active} {run : Params → Progress α} {e : ErrorKind}
    (hu : s.popDraw.close u = s.popDraw) (h : run s.params = .raised e) :
    operation u s (fun s => settle u mk (s.openSession u) (run s.params)) = .next (s.answered u e.status .nothing) := by
  rw [operation_ready hs, State.popDraw_params, h, settle_raised, State.openSession_raise, State.raise, hu, ite_self,
    State.popDraw_finish (State.active_of_ready hs)]

theorem exec_lzwEnc {input : List Byte} (hcap : ((lzwBits (lzwPhrasesOf input)).length + 7) / 8 ≤ s.params.outCapacity) :
    ∃ out, exec (.lzwEnc input) s = .next (s.answered .lzwEnc .ok (.bytes out)) ∧
      packs .lsb (lzwBits (lzwPhrasesOf input)) out := by
  obtain ⟨out, hout, hpacks⟩ := BitWriter.fresh_putBits_flush .lsb hcap
  obtain ⟨d, hrun⟩ := LzwEnc.run_eq s.params input
  rw [hout] at hrun
  exact ⟨out, operation_loop_done hs (run := fun p => LzwEnc.run p input) hrun, hpacks⟩

end

/-- Settles O60: the phrases are the encoder's own (`lzwPhrasesOf`), and the operation is one write of the bits of their codes
(`LzwEnc.run_eq`), which fits or does not. -/
theorem lzwEncWritesTheLongestMatches : Obligations.LzwEncWritesTheLongestMatches := by
  intro s input hs
  refine ⟨lzwPhrasesOf input, lzwPhrasesOf_flatten input, lzwPhrases_phrasesOf input, exec_lzwEnc hs, fun hcap => ?_⟩
  obtain ⟨d, hrun⟩ := LzwEnc.run_eq s.params input
  rw [BitWriter.putBits_flush_full (BitWriter.fresh_wf s.params .lsb) (by simpa using hcap)] at hrun
  exact operation_loop_raised hs (run := fun p => LzwEnc.run p input) rfl hrun

/-! ## The ends of the code stream -/

theorem length_le_flatten {α : Type} {l : List (List α)} (h : ∀ d ∈ l, 1 ≤ d.length) :
    l.length ≤ l.flatten.length := by
  rw [List.length_flatten, ← List.length_map (f := List.length)]
  exact List.length_le_sum_of_one_le _ (by simpa using h)

/-- R182: a phrase has at least one byte. -/
theorem lzwPhrases_length_pos {entries phrases : List (List Byte)} (h : lzwPhrases entries phrases) :
    ∀ w ∈ phrases, 1 ≤ w.length := by
  induction phrases generalizing entries with
  | nil => exact fun _ hw => absurd hw List.not_mem_nil
  | cons w rest ih =>
    obtain ⟨⟨hne, -⟩, hrest⟩ := h
    exact List.forall_mem_cons.2 ⟨List.length_pos_iff.2 hne, ih hrest⟩

/-- R184, R185: a phrase takes at most a code and a clear, of 12 bits each. -/
theorem lzwCodeBits_length_le (entries phrases : List (List Byte)) :
    (lzwCodeBits (lzwCodes entries phrases)).length ≤ 24 * phrases.length + 12 := by
  induction phrases generalizing entries with
  | nil => simp [lzwCodes, lzwCodeBits]
  | cons w rest ih =>
    have hcode := (lzwWidth_bounds (257 + entries.length)).2
    rw [lzwCodes_cons, lzwCodeBits_cons]
    cases rest with
    | nil =>
      have hend := (lzwWidth_bounds (258 + entries.length)).2
      simp only [lzwCodesAfter, lzwCodeBits, List.flatMap_singleton, List.length_append, lsbBits_length, List.length_singleton]
      omega
    | cons x rest =>
      have hclear : (lzwCodeBits (lzwClears entries)).length ≤ 12 := by unfold lzwClears; split <;> simp [lzwCodeBits]
      have hrest := ih (lzwEntered entries w (x :: rest))
      simp only [lzwCodesAfter, lzwCodeBits_append, List.length_append, lsbBits_length, List.length_cons] at hrest ⊢
      omega

/-- R187: the last code is `END_CODE`. -/
theorem lzwCodeBits_end (entries phrases : List (List Byte)) :
    ∃ w, lsbBits w 257 <:+ lzwCodeBits (lzwCodes entries phrases) ∧ 9 ≤ w ∧ w ≤ 12 := by
  induction phrases generalizing entries with
  | nil => exact ⟨9, by simp [lzwCodes, lzwCodeBits], by decide, by decide⟩
  | cons w rest ih =>
    rw [lzwCodes_cons, lzwCodeBits_cons]
    cases rest with
    | nil =>
      refine ⟨_, ?_, lzwWidth_bounds (258 + entries.length)⟩
      rw [lzwCodesAfter, lzwCodeBits, List.flatMap_singleton]
      exact List.suffix_append _ _
    | cons x rest =>
      obtain ⟨width, hend, hwidth⟩ := ih (lzwEntered entries w (x :: rest))
      refine ⟨width, ?_, hwidth⟩
      rw [lzwCodesAfter, lzwCodeBits_append, ← List.append_assoc]
      exact hend.trans (List.suffix_append _ _)

/-- R62: a capacity that every code stream of the input fits in. -/
theorem lzwBits_fits {input : List Byte} {cap : Nat} (h : 3 * input.length + 8 ≤ cap) :
    ((lzwBits (lzwPhrasesOf input)).length + 7) / 8 ≤ cap := by
  have hphrases := length_le_flatten (lzwPhrases_length_pos (lzwPhrases_phrasesOf input))
  have hcodes := lzwCodeBits_length_le [] (lzwPhrasesOf input)
  rw [lzwPhrasesOf_flatten] at hphrases
  rw [lzwBits_eq, List.length_append, lsbBits_length]
  omega

theorem bitsOf_length (o : BitOrder) (bytes : List Byte) : (bitsOf o bytes).length = 8 * bytes.length := by
  simp [bitsOf, Nat.mul_comm]

/-- R52: different byte streams have different bits. -/
theorem bitsOf_inj {o : BitOrder} {xs ys : List Byte} (h : bitsOf o xs = bitsOf o ys) : xs = ys := by
  induction xs generalizing ys with
  | nil =>
    have hlen := congrArg List.length h
    rw [bitsOf_length, bitsOf_length] at hlen
    exact (List.length_eq_zero_iff.1 (by simpa using hlen.symm)).symm
  | cons x xs ih =>
    cases ys with
    | nil => simpa [bitsOf_length] using congrArg List.length h
    | cons y ys =>
      obtain ⟨hbyte, hrest⟩ := List.append_inj h (by simp)
      have hvalue := congrArg (streamValue o) hbyte
      rw [streamValue_streamBits, streamValue_streamBits, Nat.mod_eq_of_lt x.isLt, Nat.mod_eq_of_lt y.isLt] at hvalue
      rw [BitVec.eq_of_toNat_eq hvalue, ih hrest]

/-- R54: the padding is as long as the last byte needs, so the bits determine the bytes. -/
theorem packs_unique {o : BitOrder} {bits : List Bool} {xs ys : List Byte} (hx : packs o bits xs) (hy : packs o bits ys) :
    xs = ys := by
  obtain ⟨z, hz, hx⟩ := hx
  obtain ⟨z', hz', hy⟩ := hy
  have hxlen := congrArg List.length hx
  have hylen := congrArg List.length hy
  simp only [bitsOf_length, List.length_append, List.length_replicate] at hxlen hylen
  obtain rfl : z = z' := by omega
  exact bitsOf_inj (hx.trans hy.symm)

/-- Settles O29: the bits of the code stream begin with `CLEAR_CODE` and end with `END_CODE` (`lzwCodeBits_end`), and those of
the empty input are packed in the three bytes. -/
theorem lzwStreamStartsWithClearAndEndsWithEnd : Obligations.LzwStreamStartsWithClearAndEndsWithEnd := by
  intro s input hs
  refine ⟨fun hcap => ?_, fun hcap => ?_⟩
  · obtain ⟨out, hexec, hpacks⟩ := exec_lzwEnc hs (lzwBits_fits hcap)
    obtain ⟨w, ⟨mid, hbits⟩, hmin, hmax⟩ := lzwCodeBits_end [] (lzwPhrasesOf input)
    rw [lzwBits_eq, ← hbits, ← List.append_assoc] at hpacks
    exact ⟨out, mid, w, hexec, hmin, hmax, hpacks⟩
  · obtain ⟨out, hexec, hpacks⟩ := exec_lzwEnc (input := []) hs hcap
    have hbytes : packs .lsb (lzwBits []) [0x00, 0x03, 0x02] := ⟨6, by decide, by decide⟩
    rw [hexec, packs_unique hpacks hbytes]

end Sys2Proof.Machine
end

section
/-! O28. The decoder reads each code with the dictionary of the encoder but for its last entry, the one it is about to make
(`LzwDec.Follows`): a code stands for the phrase it was written for (`LzwDec.Follows.resolves`), so each turn appends a phrase
and brings the decoder up to the encoder (`LzwDec.Follows.advance_phrase`). -/

namespace Sys2Proof.Machine

namespace LzwDec

variable {p : Params} {c : LzwDec} {k : Nat} {str w : List Byte} {entries : List (List Byte)} {bits : List Bool}

/-! ## Reading a code -/

/-- R190: a code at the front of the bits left is read whole. -/
theorem advance_code (hc : c.InRange p) (hbits : c.br.bits = lsbBits c.width k ++ bits) (hk : k < 2 ^ c.width) :
    ∃ br, c.advance p = LzwDec.accept p { c with br := br } (decodeLzw c.prev.isSome c.next k) ∧
      InRange p { c with br := br } ∧ br.bits = bits := by
  have hvalue : streamValue c.br.order (c.br.bits.take c.width) = k := by
    rw [hbits, List.take_left' (lsbBits_length _ _), hc.order, streamValue, lsbValue_lsbBits, Nat.mod_eq_of_lt hk]
  have hread : c.br.readBits c.width = some (k, { c.br with bitpos := c.br.bitpos + c.width }) := by
    rw [BitReader.readBits, if_neg (by rw [← BitReader.bits_length, hbits]; simp), BitReader.peek_eq_take, hvalue]
  refine ⟨_, ?_, hc.set_br hread, ?_⟩
  · simp only [advance, turn, hread, Turn.take_token]
  · rw [BitReader.bits_advance, hbits, List.drop_left' (lsbBits_length _ _)]

/-- R192: the decoder after a clear. -/
structure Cleared (p : Params) (c : LzwDec) (bits : List Bool) : Prop where
  inRange : c.InRange p
  stored : c.entries = []
  width : c.width = 9
  prev : c.prev = none
  bits : c.br.bits = bits

/-- R192: `CLEAR_CODE` is read. -/
theorem advance_clear (hc : c.InRange p) (hbits : c.br.bits = lsbBits c.width 256 ++ bits) :
    ∃ c', c.advance p = .more c' ∧ c'.Cleared p bits ∧ c'.out = c.out ∧ c'.expected = c.expected := by
  have hk : 256 < 2 ^ c.width := (by decide : 256 < 2 ^ 9).trans_le (Nat.pow_le_pow_right (by decide) hc.widthGe)
  obtain ⟨br, hadvance, hc', hbr⟩ := advance_code hc hbits hk
  refine ⟨_, hadvance, ⟨?_, rfl, rfl, rfl, hbr⟩, rfl, rfl⟩
  exact wf_iff.1 ((accept_all hc' hk).of_more (by rfl))

/-- R197: `END_CODE` is read. -/
theorem advance_end (hc : c.InRange p) (hbits : c.br.bits = lsbBits c.width 257 ++ bits) (hexp : c.out.length = c.expected) :
    ∃ d, c.advance p = .done d .ok (.bytes c.out) := by
  have hk : 257 < 2 ^ c.width := (by decide : 257 < 2 ^ 9).trans_le (Nat.pow_le_pow_right (by decide) hc.widthGe)
  obtain ⟨br, hadvance, -, -⟩ := advance_code hc hbits hk
  exact ⟨_, hadvance.trans (if_neg (not_not.2 (hc.produced.trans hexp)))⟩

/-- R190: a code that stands for a string that fits is read and taken. -/
theorem advance_resolves (hc : c.InRange p) (hbits : c.br.bits = lsbBits c.width k ++ bits) (hk : k < 2 ^ c.width)
    (hres : c.Resolves k str) (hcap : c.out.length + str.length ≤ p.outCapacity)
    (hexp : c.out.length + str.length ≤ c.expected) :
    ∃ br c', c.advance p = .more c' ∧ Took { c with br := br } c' k str ∧ c'.InRange p ∧ br.bits = bits := by
  obtain ⟨br, hadvance, hc', hbr⟩ := advance_code hc hbits hk
  obtain ⟨c', hmore, htook, hwf⟩ := accept_took (k := k) hc' hk hres hcap (by rw [hc'.produced]; exact hexp)
  exact ⟨br, c', hadvance.trans hmore, htook, wf_iff.1 hwf, hbr⟩

/-! ## Following the encoder -/

/-- R195: the decoder after the code of the phrase `w`, which the encoder wrote with this dictionary. -/
structure Follows (p : Params) (c : LzwDec) (entries : List (List Byte)) (w : List Byte) (bits : List Bool) : Prop where
  inRange : c.InRange p
  stored : c.entries = lzwEntries entries
  width : c.width = lzwWidth (258 + entries.length)
  closed : lzwClosed entries
  known : lzwKnown entries w
  prev : c.prev = some (lzwCodeOf entries w)
  bits : c.br.bits = bits

/-- R33, R191: the code of a known string has the string. -/
theorem string_code (hc : c.InRange p) (hentries : c.entries = lzwEntries entries) (hclosed : lzwClosed entries) :
    lzwKnown entries w → c.string (lzwCodeOf entries w) = some w := by
  obtain ⟨hbyte, hchain⟩ := lzwStringsFollowThePrefixChain p c (wf_iff.2 hc)
  induction w using List.reverseRecOn with
  | nil => exact fun h => absurd rfl h.1
  | append_singleton v b ih =>
    intro hknown
    by_cases hv : v = []
    · subst hv
      rw [List.nil_append, lzwCodeOf_byte, hbyte _ b.isLt, BitVec.ofNat_toNat, BitVec.setWidth_eq]
    · have hlen : 2 ≤ (v ++ [b]).length := by
        have hpos : 0 < v.length := List.length_pos_iff.2 hv
        simp only [List.length_append, List.length_singleton]
        omega
      have hv := hclosed.known_prefix hv hknown
      have hcode := lzwCodeOf_of_two_le (entries := entries) hlen
      have hlt : lzwCodeOf entries (v ++ [b]) < c.next := by
        rw [hc.next, hentries, lzwEntries_length]
        exact lzwCodeOf_lt hknown
      obtain ⟨pre, suf, q, hentry, hq, hstring⟩ := hchain _ (by rw [hcode]; exact Nat.le_add_right _ _) hlt
      rw [hcode, Nat.add_sub_cancel_left, hentries, hclosed.entries_getElem? hv (hknown.mem hlen), Option.some.injEq,
        Prod.mk.injEq] at hentry
      obtain ⟨rfl, rfl⟩ := hentry
      rw [ih hv, Option.some.injEq] at hq
      rw [hstring, hq]

namespace Follows

variable {b : Byte} {bs : List Byte}

theorem next (h : c.Follows p entries w bits) : c.next = 258 + entries.length := by
  rw [h.inRange.next, h.stored, lzwEntries_length]
  rfl

/-- R191, R193: the code of the next phrase stands for it, also where the phrase is the entry that the decoder lacks. -/
theorem resolves (h : c.Follows p entries w bits) (hx : lzwKnown (entries ++ [w ++ [b]]) (b :: bs)) :
    c.Resolves (lzwCodeOf (entries ++ [w ++ [b]]) (b :: bs)) (b :: bs) := by
  by_cases hold : lzwKnown entries (b :: bs)
  · rw [lzwCodeOf_append hold]
    by_cases hlen : bs = []
    · subst hlen
      have := Resolves.literal (c := c) b.isLt
      rwa [BitVec.ofNat_toNat, BitVec.setWidth_eq] at this
    · have hcode : lzwCodeOf entries (b :: bs) = 258 + entries.idxOf (b :: bs) :=
        lzwCodeOf_of_two_le (by have := List.length_pos_iff.2 hlen; simp only [List.length_cons]; omega)
      refine .inr (.inl ⟨by simp [h.prev], by omega, ?_, string_code h.inRange h.stored h.closed hold⟩)
      rw [h.next]
      exact lzwCodeOf_lt hold
  · have hlen : (b :: bs).length ≠ 1 := fun h1 => hold ⟨hx.1, .inl h1⟩
    have hnot : b :: bs ∉ entries := fun hmem => hold ⟨hx.1, .inr hmem⟩
    have hnew : b :: bs = w ++ [b] := by
      obtain hmem | hmem := List.mem_append.1 (hx.2.resolve_left hlen)
      · exact absurd hmem hnot
      · exact List.mem_singleton.1 hmem
    obtain ⟨a, as, rfl⟩ := List.exists_cons_of_ne_nil h.known.1
    obtain rfl : b = a := (List.cons.inj hnew).1
    rw [← hnew, lzwCodeOf_new (by simp only [List.length_cons] at hlen ⊢; omega) hnot, hnew]
    exact .inr (.inr ⟨h.next.symm, _, _, h.prev, string_code h.inRange h.stored h.closed h.known, rfl⟩)

/-- R190, R194, R195: the next phrase is read with the dictionary that the encoder wrote it with. -/
theorem advance_phrase
    (h : c.Follows p entries w
      (lsbBits (lzwWidth (258 + entries.length)) (lzwCodeOf (entries ++ [w ++ [b]]) (b :: bs)) ++ bits))
    (hroom : 258 + entries.length < 4096) (hx : lzwKnown (entries ++ [w ++ [b]]) (b :: bs))
    (hcap : c.out.length + (b :: bs).length ≤ p.outCapacity) (hexp : c.out.length + (b :: bs).length ≤ c.expected) :
    ∃ c', c.advance p = .more c' ∧ c'.Follows p (entries ++ [w ++ [b]]) (b :: bs) bits ∧ c'.out = c.out ++ b :: bs ∧
      c'.expected = c.expected := by
  have hcode := lzwCodeOf_lt hx
  have hbits := h.bits
  rw [List.length_append, List.length_singleton] at hcode
  rw [← h.width] at hbits
  have hk : lzwCodeOf (entries ++ [w ++ [b]]) (b :: bs) < 2 ^ c.width := by
    rw [h.width]
    exact (show _ ≤ 258 + entries.length by omega).trans_lt (lt_two_pow_lzwWidth hroom)
  obtain ⟨br, c', hmore, ⟨hbr, hexpected, hout, -, hprev, htook⟩, hc', hrest⟩ :=
    advance_resolves h.inRange hbits hk (h.resolves hx) hcap hexp
  simp only [h.prev, h.next, if_pos hroom] at htook
  obtain ⟨⟨⟨b', hb', hstored⟩, hnext⟩, hwidth⟩ := htook
  obtain rfl : b = b' := Option.some.inj hb'
  refine ⟨c', hmore, ⟨hc', ?_, ?_, h.closed.append h.known b, hx, hprev, by rw [hbr, hrest]⟩, hout, hexpected⟩
  · rw [hstored, h.stored, h.closed.entries_append h.known]
  · rw [hwidth, hnext, h.width, List.length_append, List.length_singleton, ← Nat.add_assoc, ← widen_lzwWidth]
    rfl

end Follows

/-- R190, R192: the first phrase after a clear is a single byte. -/
theorem Cleared.advance_first {b : Byte} (h : c.Cleared p (lsbBits 9 b.toNat ++ bits))
    (hcap : c.out.length + 1 ≤ p.outCapacity) (hexp : c.out.length + 1 ≤ c.expected) :
    ∃ c', c.advance p = .more c' ∧ c'.Follows p [] [b] bits ∧ c'.out = c.out ++ [b] ∧ c'.expected = c.expected := by
  have hbits := h.bits
  rw [← h.width] at hbits
  have hk : b.toNat < 2 ^ c.width := by rw [h.width]; exact b.isLt.trans (by decide)
  have hres := Resolves.literal (c := c) b.isLt
  rw [BitVec.ofNat_toNat, BitVec.setWidth_eq] at hres
  obtain ⟨br, c', hmore, ⟨hbr, hexpected, hout, -, hprev, htook⟩, hc', hrest⟩ :=
    advance_resolves h.inRange hbits hk hres hcap hexp
  simp only [h.prev] at htook
  obtain ⟨hstored, -, hwidth⟩ := htook
  refine ⟨c', hmore, ⟨hc', ?_, ?_, lzwClosed_nil, lzwKnown_byte [] b, hprev, by rw [hbr, hrest]⟩, hout, hexpected⟩
  · rw [hstored, h.stored]; rfl
  · rw [hwidth, h.width]; rfl

section

variable {x : List Byte} {rest : List (List Byte)} {padding : List Bool}

/-- R185, R192, R195: the turns that read the next phrase, the first of them a clear where the table was full. -/
theorem Follows.next_phrase (h : c.Follows p entries w (lzwCodeBits (lzwCodesAfter entries w (x :: rest)) ++ padding))
    (hphrases : lzwPhrases (lzwEntered entries w (x :: rest)) (x :: rest))
    (hcap : c.out.length + x.length ≤ p.outCapacity) (hexp : c.out.length + x.length ≤ c.expected) :
    ∃ n c', (∀ fuel, runLoop (advance p) (fuel + n) c = runLoop (advance p) fuel c') ∧
      c'.br.bits.length + n ≤ c.br.bits.length ∧
      c'.Follows p (lzwEntered entries w (x :: rest)) x
        (lzwCodeBits (lzwCodesAfter (lzwEntered entries w (x :: rest)) x rest) ++ padding) ∧
      c'.out = c.out ++ x ∧ c'.expected = c.expected := by
  obtain ⟨⟨hne, hx, -⟩, -⟩ := hphrases
  obtain ⟨b, bs, rfl⟩ := List.exists_cons_of_ne_nil hne
  have hbits := h.bits
  rw [lzwCodesAfter, lzwCodes_cons, lzwCodeBits_append, lzwCodeBits_cons, List.append_assoc, List.append_assoc] at hbits
  have hentered : lzwEntered entries w ((b :: bs) :: rest) = lzwGrown entries w b := lzwEntered_of_flatten (List.flatten_cons)
  rw [hentered] at hx hbits ⊢
  by_cases hroom : 258 + entries.length < 4096
  · have hgrown : lzwGrown entries w b = entries ++ [w ++ [b]] := if_pos hroom
    have hclears : lzwClears entries = [] := if_pos hroom
    rw [hgrown] at hx hbits ⊢
    have hlen : 257 + (entries ++ [w ++ [b]]).length = 258 + entries.length := by
      rw [List.length_append, List.length_singleton]; omega
    rw [hclears, hlen] at hbits
    obtain ⟨c', hmore, hc', hout, hexpected⟩ :=
      Follows.advance_phrase { h with bits := hbits } hroom ⟨hne, hx⟩ hcap hexp
    refine ⟨1, c', fun fuel => runLoop_more hmore, ?_, hc', hout, hexpected⟩
    have hwidth := (lzwWidth_bounds (258 + entries.length)).1
    simp only [hc'.bits, hbits, lzwCodeBits, List.flatMap_nil, List.nil_append, List.length_append, lsbBits_length]
    omega
  · have hgrown : lzwGrown entries w b = [] := if_neg hroom
    have hclears : lzwClears entries = [(256, 12)] := if_neg hroom
    have hwidth : c.width = 12 := h.width.trans (lzwWidth_full (Nat.not_lt.1 hroom))
    rw [hgrown] at hx hbits ⊢
    obtain rfl : bs = [] := by simpa using hx
    rw [hclears, lzwCodeBits, List.flatMap_singleton, ← hwidth] at hbits
    obtain ⟨c₁, hclear, hc₁, hout₁, hexpected₁⟩ := advance_clear h.inRange hbits
    rw [← hout₁, ← hexpected₁] at hexp
    rw [← hout₁] at hcap
    obtain ⟨c', hmore, hc', hout, hexpected⟩ := Cleared.advance_first (b := b) hc₁ hcap hexp
    refine ⟨2, c', fun fuel => (runLoop_more hclear).trans (runLoop_more hmore), ?_, hc', ?_, ?_⟩
    · simp only [hc'.bits, hbits, List.length_append, lsbBits_length]
      omega
    · rw [hout, hout₁]
    · rw [hexpected, hexpected₁]

/-- R198: the phrases after `w` are read and returned, up to `END_CODE`. -/
theorem Follows.runLoop_eq {fuel : Nat}
    (h : c.Follows p entries w (lzwCodeBits (lzwCodesAfter entries w rest) ++ padding))
    (hphrases : lzwPhrases (lzwEntered entries w rest) rest)
    (hcap : c.out.length + rest.flatten.length ≤ p.outCapacity) (hexp : c.out.length + rest.flatten.length = c.expected)
    (hfuel : c.br.bits.length < fuel) :
    ∃ d, runLoop (advance p) fuel c = .done d .ok (.bytes (c.out ++ rest.flatten)) := by
  induction rest generalizing c entries w fuel with
  | nil =>
    obtain ⟨n, rfl⟩ := Nat.exists_eq_add_one.2 (Nat.zero_lt_of_lt hfuel)
    have hbits := h.bits
    rw [lzwCodesAfter, lzwCodeBits, List.flatMap_singleton, ← h.width] at hbits
    obtain ⟨d, hdone⟩ := advance_end h.inRange hbits (by simpa using hexp)
    exact ⟨d, by simpa using runLoop_done hdone⟩
  | cons x rest ih =>
    rw [List.flatten_cons, List.length_append] at hcap hexp
    obtain ⟨n, c', hrun, hlen, hc', hout, hexpected⟩ := h.next_phrase hphrases (by omega) (by omega)
    have houtlen : c'.out.length = c.out.length + x.length := by rw [hout, List.length_append]
    obtain ⟨m, rfl⟩ := Nat.exists_eq_add_of_le' (show n ≤ fuel by omega)
    obtain ⟨d, hd⟩ := ih (fuel := m) hc' hphrases.2 (by omega) (by omega) (by omega)
    exact ⟨d, by rw [hrun, hd, hout, List.flatten_cons, List.append_assoc]⟩

/-- R198: the phrases after a clear are read and returned, up to `END_CODE`. -/
theorem Cleared.runLoop_eq {phrases : List (List Byte)} {fuel : Nat}
    (h : c.Cleared p (lzwCodeBits (lzwCodes [] phrases) ++ padding)) (hphrases : lzwPhrases [] phrases)
    (hcap : c.out.length + phrases.flatten.length ≤ p.outCapacity)
    (hexp : c.out.length + phrases.flatten.length = c.expected) (hfuel : c.br.bits.length < fuel) :
    ∃ d, runLoop (advance p) fuel c = .done d .ok (.bytes (c.out ++ phrases.flatten)) := by
  obtain ⟨n, rfl⟩ := Nat.exists_eq_add_one.2 (Nat.zero_lt_of_lt hfuel)
  have hbits := h.bits
  cases phrases with
  | nil =>
    rw [lzwCodes, lzwCodeBits, List.flatMap_singleton, ← h.width] at hbits
    obtain ⟨d, hdone⟩ := advance_end h.inRange hbits (by simpa using hexp)
    exact ⟨d, by simpa using runLoop_done hdone⟩
  | cons x rest =>
    obtain ⟨⟨-, hx, -⟩, hrest⟩ := hphrases
    obtain ⟨b, rfl⟩ : ∃ b, x = [b] := List.length_eq_one_iff.1 (by simpa using hx)
    rw [List.flatten_cons, List.length_append, List.length_singleton] at hcap hexp
    rw [lzwCodes_cons, lzwCodeBits_cons, List.append_assoc] at hbits
    obtain ⟨c', hmore, hc', hout, hexpected⟩ :=
      Cleared.advance_first (b := b) { h with bits := hbits } (by omega) (by omega)
    have hwidth : lzwWidth (257 + ([] : List (List Byte)).length) = 9 := rfl
    have hlen := congrArg List.length hbits
    have houtlen := congrArg List.length hout
    rw [← hc'.bits, List.length_append, lsbBits_length] at hlen
    rw [List.length_append, List.length_singleton] at houtlen
    obtain ⟨d, hd⟩ := Follows.runLoop_eq (fuel := n) hc' hrest (by omega) (by omega) (by omega)
    exact ⟨d, by rw [runLoop_more hmore, hd, hout, List.append_assoc, List.flatten_cons]⟩

end

/-- R197, R198: from the bits of the code stream of an input, whatever follows them, the decoder returns the input. -/
theorem run_phrases {input out : List Byte} {padding : List Bool}
    (hout : bitsOf .lsb out = lzwBits (lzwPhrasesOf input) ++ padding) (hcap : input.length ≤ p.outCapacity) :
    ∃ d, run p out input.length = .done d .ok (.bytes input) := by
  have hfresh : (fresh out input.length).br.bits = lsbBits 9 256 ++
      (lzwCodeBits (lzwCodes [] (lzwPhrasesOf input)) ++ padding) := by
    rw [← List.append_assoc, ← lzwBits_eq, ← hout]
    rfl
  obtain ⟨c, hclear, hc, hcout, hexpected⟩ := advance_clear (wf_iff.1 (fresh_wf p _ _)) hfresh
  have hlen : 8 * out.length = 9 + c.br.bits.length := by
    rw [← bitsOf_length .lsb out, hout, lzwBits_eq, List.append_assoc, List.length_append, lsbBits_length, hc.bits]
  have hrun := hc.runLoop_eq (fuel := 8 * out.length) (lzwPhrases_phrasesOf input)
  rw [lzwPhrasesOf_flatten, hcout, hexpected] at hrun
  obtain ⟨d, hd⟩ := hrun (by simpa [fresh] using hcap) (by simp [fresh]) (by omega)
  exact ⟨d, (runLoop_more hclear).trans hd⟩

end LzwDec

/-! ## The operation -/

theorem exec_lzwDec {s : State} (hs : s.ready = true) {input out : List Byte}
    (hpacks : packs .lsb (lzwBits (lzwPhrasesOf input)) out) (hcap : input.length ≤ s.params.outCapacity) :
    exec (.lzwDec out input.length) s = .next (s.answered .lzwDec .ok (.bytes input)) := by
  obtain ⟨z, -, hout⟩ := hpacks
  obtain ⟨d, hrun⟩ := LzwDec.run_phrases hout hcap
  exact operation_loop_done hs (run := fun p => LzwDec.run p out input.length) hrun

/-- Settles O28: the encoder writes the codes of its phrases (`exec_lzwEnc`), and the decoder reads the phrases back
(`exec_lzwDec`). -/
theorem lzwRoundTrip : Obligations.LzwRoundTrip := by
  intro s input hs hcap
  obtain ⟨out, hexec, hpacks⟩ := exec_lzwEnc hs (lzwBits_fits hcap)
  exact ⟨out, hexec, fun u hu hfits => exec_lzwDec hu hpacks hfits⟩

end Sys2Proof.Machine
end

section
/-! O30, O31 and O32. The packer writes blocks cut at 255 bytes (`SbCut`) one by one (`runLoop_sbPackTurn`); the unpacker copies
the data of a length byte (`sbData_fits` and its two errors), so it reads blocks one by one (`runLoop_subBlocks`). -/

namespace Sys2Proof.Machine

variable {p : Params} {c : ByteCoder} {b : Byte} {bs d : List Byte} {blocks : List (List Byte)}

namespace ByteCoder

theorem getElem?_of_rest (h : c.rest = b :: bs) : c.input[c.i]? = some b := by
  rw [← List.head?_drop, ← rest, h]
  rfl

theorem rest_next (h : c.rest = b :: bs) : ({ c with i := c.i + 1 } : ByteCoder).rest = bs := by
  rw [rest, ← List.drop_drop, ← rest, h]
  rfl

theorem rest_length (c : ByteCoder) : c.rest.length = c.input.length - c.i := List.length_drop

end ByteCoder

/-! ## The packer -/

/-- R200: blocks of 1 to 255 bytes, all but the last of 255. -/
def SbCut (blocks : List (List Byte)) : Prop :=
  (∀ d ∈ blocks, 1 ≤ d.length ∧ d.length ≤ 255) ∧ ∀ d ∈ blocks.dropLast, d.length = 255

/-- R200: the length of the first block is that of the packer's turn. -/
theorem SbCut.length_head (h : SbCut (d :: blocks)) : d.length = min 255 (d :: blocks).flatten.length := by
  obtain ⟨hbounds, hfull⟩ := h
  obtain ⟨hmin, hmax⟩ := hbounds d (List.mem_cons_self ..)
  cases blocks with
  | nil => simp; omega
  | cons e blocks =>
    have h255 : d.length = 255 := hfull d (by simp)
    simp only [List.flatten_cons, List.length_append]
    omega

theorem SbCut.tail (h : SbCut (d :: blocks)) : SbCut blocks := by
  obtain ⟨hbounds, hfull⟩ := h
  refine ⟨fun e he => hbounds e (List.mem_cons_of_mem _ he), fun e he => hfull e ?_⟩
  cases blocks with
  | nil => cases he
  | cons x blocks => exact List.mem_cons_of_mem _ he

/-- R200: every input is cut into such blocks. -/
theorem exists_sbCut (input : List Byte) : ∃ blocks, blocks.flatten = input ∧ SbCut blocks := by
  induction hn : input.length using Nat.strong_induction_on generalizing input with
  | _ n ih =>
    subst hn
    by_cases hnil : input = []
    · exact ⟨[], hnil.symm, by simp [SbCut]⟩
    · have hpos : 0 < input.length := List.length_pos_iff.2 hnil
      obtain ⟨blocks, hflatten, hbounds, hfull⟩ := ih (input.drop 255).length (by simp; omega) (input.drop 255) rfl
      refine ⟨input.take 255 :: blocks, by rw [List.flatten_cons, hflatten, List.take_append_drop], ?_, ?_⟩
      · exact List.forall_mem_cons.2 ⟨by simp; omega, hbounds⟩
      · cases blocks with
        | nil => simp
        | cons e blocks =>
          have hlen := congrArg List.length hflatten
          have he := hbounds e (List.mem_cons_self ..)
          simp only [List.flatten_cons, List.length_append, List.length_drop] at hlen
          exact List.forall_mem_cons.2 ⟨by simp; omega, hfull⟩

theorem emitAll_append (cap : Nat) (out xs ys : List Byte) :
    emitAll cap out (xs ++ ys) = (emitAll cap out xs >>= fun out' => emitAll cap out' ys) := by
  induction xs generalizing out with
  | nil => rfl
  | cons x xs ih =>
    simp only [List.cons_append, emitAll]
    cases emit cap out x with
    | ok out' => exact ih out'
    | error e => rfl

/-- R200: a turn of the packer at a block. -/
theorem sbPackTurn_block (hcut : SbCut (d :: blocks)) (h : c.rest = (d :: blocks).flatten) :
    sbPackTurn p c = Progress.ofExcept (fun out => .more { c with out := out, i := c.i + d.length })
      (emitAll p.outCapacity c.out (BitVec.ofNat 8 d.length :: d)) := by
  have hlen : d.length = min subBlockMax (c.input.length - c.i) := by
    rw [← c.rest_length, h]
    exact hcut.length_head
  have hpos := (hcut.1 d (List.mem_cons_self ..)).1
  have htake : c.rest.take d.length = d := by rw [h, List.flatten_cons, List.take_left' rfl]
  rw [sbPackTurn, if_pos (by omega)]
  simp only [← hlen, htake, ByteCoder.emitAt]
  cases emitAll p.outCapacity c.out (BitVec.ofNat 8 d.length :: d) <;> rfl

/-- R200: the packer emits the blocks and the terminator. -/
theorem runLoop_sbPackTurn {fuel : Nat} (hcut : SbCut blocks) (h : c.rest = blocks.flatten) (hfuel : blocks.length < fuel) :
    ∃ c', runLoop (sbPackTurn p) fuel c = Progress.ofExcept (fun out => .done c' .ok (.bytes out))
      (emitAll p.outCapacity c.out (subBlocks blocks ++ [0])) := by
  induction blocks generalizing c fuel with
  | nil =>
    obtain ⟨n, rfl⟩ := Nat.exists_eq_add_one.2 hfuel
    have hend : ¬ c.i < c.input.length := by
      have hlen := c.rest_length
      rw [h] at hlen
      simp at hlen
      omega
    have hturn : sbPackTurn p c = Progress.ofExcept (fun out => .done c .ok (.bytes out)) (emit p.outCapacity c.out 0) :=
      if_neg hend
    refine ⟨c, ?_⟩
    simp only [runLoop, hturn, subBlocks, List.flatMap_nil, List.nil_append, emitAll]
    cases emit p.outCapacity c.out 0 <;> rfl
  | cons d blocks ih =>
    obtain ⟨n, rfl⟩ := Nat.exists_eq_add_one.2 (Nat.zero_lt_of_lt hfuel)
    rw [runLoop_ofExcept (sbPackTurn_block hcut h), subBlocks, List.flatMap_cons, ← subBlocks, List.append_assoc,
      emitAll_append]
    cases emitAll p.outCapacity c.out (BitVec.ofNat 8 d.length :: d) with
    | error e => exact ⟨c, rfl⟩
    | ok out =>
      refine ih (c := { c with out := out, i := c.i + d.length }) hcut.tail ?_ (by simpa using hfuel)
      rw [ByteCoder.rest, ← List.drop_drop, ← ByteCoder.rest, h, List.flatten_cons, List.drop_left' rfl]

/-- Settles O30: the input is cut into blocks (`exists_sbCut`), which the packer emits where they fit (`runLoop_sbPackTurn`). -/
theorem sbPackFillsBlocksOf255 : Obligations.SbPackFillsBlocksOf255 := by
  intro s input hs
  obtain ⟨blocks, hflatten, hcut⟩ := exists_sbCut input
  have hfuel : blocks.length < input.length + 1 := by
    rw [← hflatten]
    exact Nat.lt_succ_of_le (length_le_flatten fun d hd => (hcut.1 d hd).1)
  obtain ⟨d, hrun⟩ := runLoop_sbPackTurn (p := s.params) (c := ByteCoder.fresh input) hcut hflatten.symm hfuel
  rw [emitAll_eq _ _ _ (Nat.zero_le _)] at hrun
  refine ⟨blocks, hflatten, hcut.1, hcut.2, fun hcap => ?_, fun hcap => ?_⟩
  · rw [if_pos (by simpa [ByteCoder.fresh] using hcap)] at hrun
    exact operation_loop_done hs (run := fun p => sbPackRun p input) hrun
  · rw [if_neg (by simpa [ByteCoder.fresh] using hcap)] at hrun
    exact operation_loop_raised hs (run := fun p => sbPackRun p input) rfl hrun

/-! ## A length byte -/

section

variable {len : Byte}

/-- R201: the data bytes are there and fit. -/
theorem sbData_fits (hin : c.i + len.toNat ≤ c.input.length) (hcap : c.out.length + len.toNat ≤ p.outCapacity) :
    sbData p c len = .more ⟨c.input, c.i + len.toNat, c.out ++ c.rest.take len.toNat⟩ := by
  have hlen : (c.rest.take len.toNat).length = len.toNat := by
    rw [List.length_take, c.rest_length]
    omega
  rw [sbData, if_neg (by omega), ByteCoder.emitAt, emitAll_eq _ _ _ (by omega), hlen, if_pos hcap]
  rfl

/-- R201: too few data bytes. -/
theorem sbData_short (hin : c.input.length < c.i + len.toNat) : sbData p c len = .raised .corruptBitstream := if_pos hin

/-- R62: data bytes that do not fit. -/
theorem sbData_full (hout : c.out.length ≤ p.outCapacity) (hin : c.i + len.toNat ≤ c.input.length)
    (hcap : p.outCapacity < c.out.length + len.toNat) : sbData p c len = .raised .allocationFailure := by
  have hlen : (c.rest.take len.toNat).length = len.toNat := by
    rw [List.length_take, c.rest_length]
    omega
  rw [sbData, if_neg (by omega), ByteCoder.emitAt, emitAll_eq _ _ _ hout, hlen, if_neg (by omega)]
  rfl

end

/-- Settles O32: a length byte by what its data come to (`sbData_fits`, `sbData_short`, `sbData_full`), the terminator and the
packet by their own turns. -/
theorem subBlockAndCountValueTokens : Obligations.SubBlockAndCountValueTokens := by
  refine ⟨fun s c len ha hwf => ?_, fun s c value k ha hlen => ?_⟩
  · have htoken (f : ByteCoder → Progress ByteCoder) : onSbUnpack s f = settle .sbUnpack .sbUnpack s (f c) := by
      simp [onSbUnpack, ha]
    have hexec : exec (.sbLength len) s = settle .sbUnpack .sbUnpack s (sbData s.params c len) :=
      htoken fun c => sbData s.params c len
    refine ⟨fun hin hcap => ?_, fun hin => ?_, fun hin hcap => ?_, htoken sbStop⟩
    · rw [hexec, sbData_fits hin hcap]
      rfl
    · rw [hexec, sbData_short hin]
      exact settle_raised_ended _ rfl _
    · rw [hexec, sbData_full (ByteCoder.wf_iff.1 hwf).2 hin hcap]
      exact settle_raised_ended _ rfl _
  · have hexec : exec (.cvPacket value k) s = settle .cvDec .cvDec s (c.packet value k) := by
      rw [exec, execCvPacket]
      simp [ha, hlen]
    refine ⟨fun hle => ?_, fun hlt => ?_⟩
    · rw [hexec, CvDec.packet, if_neg (Nat.not_lt.2 hle)]
      rfl
    · rw [hexec, CvDec.packet, if_pos hlt]
      exact settle_raised_ended _ rfl _

/-! ## The unpacker -/

theorem sbUnpackTurn_of_rest (h : c.rest = b :: bs) :
    sbUnpackTurn p c = sbAccept p { c with i := c.i + 1 } (decodeSb b) := by
  simp only [sbUnpackTurn, sbTurn, ByteCoder.getElem?_of_rest h, Turn.take_token]

theorem decodeSb_length {n : Nat} (hmin : 1 ≤ n) (hmax : n ≤ 255) :
    decodeSb (BitVec.ofNat 8 n) = .length (BitVec.ofNat 8 n) ∧ (BitVec.ofNat 8 n).toNat = n := by
  have hvalue : (BitVec.ofNat 8 n).toNat = n := by rw [BitVec.toNat_ofNat]; omega
  refine ⟨if_neg fun h => ?_, hvalue⟩
  rw [h] at hvalue
  exact absurd hvalue (by simp; omega)

/-- R201: a whole block is copied. -/
theorem sbUnpackTurn_block {rest : List Byte} (hmin : 1 ≤ d.length) (hmax : d.length ≤ 255)
    (h : c.rest = BitVec.ofNat 8 d.length :: (d ++ rest)) (hcap : c.out.length + d.length ≤ p.outCapacity) :
    ∃ c', sbUnpackTurn p c = .more c' ∧ c'.rest = rest ∧ c'.out = c.out ++ d := by
  obtain ⟨hdecode, hvalue⟩ := decodeSb_length hmin hmax
  have hnext := ByteCoder.rest_next h
  have hlen := ByteCoder.rest_length { c with i := c.i + 1 }
  rw [hnext, List.length_append] at hlen
  refine ⟨⟨c.input, c.i + 1 + d.length, c.out ++ d⟩, ?_, ?_, rfl⟩
  · have hin : c.i + 1 + d.length ≤ c.input.length := by dsimp only at hlen; omega
    rw [sbUnpackTurn_of_rest h, hdecode, sbAccept, sbData_fits (by rwa [hvalue]) (by rwa [hvalue]), hvalue, hnext,
      List.take_left' rfl]
  · rw [ByteCoder.rest, ← List.drop_drop]
    show List.drop _ ({ c with i := c.i + 1 } : ByteCoder).rest = _
    rw [hnext, List.drop_left' rfl]

/-- R201: the blocks are read one by one. -/
theorem runLoop_subBlocks {rest : List Byte} (hbounds : ∀ d ∈ blocks, 1 ≤ d.length ∧ d.length ≤ 255)
    (h : c.rest = subBlocks blocks ++ rest) (hcap : c.out.length + blocks.flatten.length ≤ p.outCapacity) (fuel : Nat) :
    ∃ c', runLoop (sbUnpackTurn p) (fuel + blocks.length) c = runLoop (sbUnpackTurn p) fuel c' ∧ c'.rest = rest ∧
      c'.out = c.out ++ blocks.flatten := by
  induction blocks generalizing c with
  | nil => exact ⟨c, rfl, h, by simp⟩
  | cons d blocks ih =>
    obtain ⟨⟨hmin, hmax⟩, hbounds⟩ := List.forall_mem_cons.1 hbounds
    rw [subBlocks, List.flatMap_cons, ← subBlocks, List.append_assoc, List.cons_append] at h
    rw [List.flatten_cons, List.length_append] at hcap
    obtain ⟨c₁, hmore, hrest, hout⟩ := sbUnpackTurn_block (p := p) hmin hmax h (by omega)
    obtain ⟨c', hrun, hrest', hout'⟩ := ih hbounds hrest (by rw [hout, List.length_append]; omega)
    refine ⟨c', (runLoop_more hmore).trans hrun, hrest', ?_⟩
    rw [hout', hout, List.flatten_cons, List.append_assoc]

theorem length_le_subBlocks (blocks : List (List Byte)) : blocks.length ≤ (subBlocks blocks).length := by
  have h := length_le_flatten (l := blocks.map fun d => BitVec.ofNat 8 d.length :: d) (by simp)
  rwa [List.length_map, ← List.flatMap_def] at h

/-- R201: what the unpacker comes to at the bytes after some blocks. -/
theorem sbUnpackRun_subBlocks {rest : List Byte} (hbounds : ∀ d ∈ blocks, 1 ≤ d.length ∧ d.length ≤ 255)
    (hcap : blocks.flatten.length ≤ p.outCapacity) :
    ∃ n c', sbUnpackRun p (subBlocks blocks ++ rest) = runLoop (sbUnpackTurn p) (n + 1) c' ∧ c'.rest = rest ∧
      c'.out = blocks.flatten := by
  have hlen := length_le_subBlocks blocks
  obtain ⟨n, hn⟩ := Nat.exists_eq_add_of_le' (show blocks.length ≤ (subBlocks blocks ++ rest).length by simp; omega)
  obtain ⟨c', hrun, hrest, hout⟩ := runLoop_subBlocks (c := ByteCoder.fresh (subBlocks blocks ++ rest)) (p := p) hbounds rfl
    (by simpa [ByteCoder.fresh] using hcap) (n + 1)
  refine ⟨n, c', ?_, hrest, by simpa [ByteCoder.fresh] using hout⟩
  rw [sbUnpackRun, hn, Nat.add_right_comm, hrun]

/-- Settles O31: after the blocks (`sbUnpackRun_subBlocks`) stand the terminator, no byte, or a length byte with too few. -/
theorem sbUnpackReturnsTheData : Obligations.SbUnpackReturnsTheData := by
  intro s blocks hs hbounds hcap
  have hraised {rest : List Byte}
      (hturn : ∀ c : ByteCoder, c.rest = rest → sbUnpackTurn s.params c = .raised .corruptBitstream) :
      exec (.sbUnpack (subBlocks blocks ++ rest)) s = .next (s.answered .sbUnpack .corruptBitstream .nothing) := by
    obtain ⟨n, c, hrun, hrest, -⟩ := sbUnpackRun_subBlocks (rest := rest) hbounds hcap
    exact operation_loop_raised hs (run := fun p => sbUnpackRun p (subBlocks blocks ++ rest)) rfl
      (hrun.trans (runLoop_raised (hturn c hrest)))
  refine ⟨fun rest => ?_, ?_, fun len part hlen => hraised fun c hc => ?_⟩
  · obtain ⟨n, c, hrun, hrest, hout⟩ := sbUnpackRun_subBlocks (rest := 0 :: rest) hbounds hcap
    have hturn := sbUnpackTurn_of_rest (p := s.params) hrest
    rw [← hout]
    exact operation_loop_done hs (run := fun p => sbUnpackRun p (subBlocks blocks ++ 0 :: rest))
      (hrun.trans (runLoop_done hturn))
  · have hend := hraised (rest := []) fun c hc => by
      have hnone : c.input[c.i]? = none := by rw [← List.head?_drop, ← ByteCoder.rest, hc]; rfl
      simp only [sbUnpackTurn, sbTurn, hnone, Turn.take_stop]
    rwa [List.append_nil] at hend
  · have hshort := ByteCoder.rest_length c
    have hne : len ≠ 0 := by rintro rfl; simp at hlen
    rw [hc, List.length_cons] at hshort
    rw [sbUnpackTurn_of_rest hc, decodeSb, if_neg hne]
    exact sbData_short (by dsimp only; omega)

end Sys2Proof.Machine
end

section
/-! O34 and O35. A chunk of the PackBits decoder is taken, crosses the total or does not fit (`PbDec.chunk_fits` and its two
errors); the turn at a legal packet takes its data (`PbDec.advance_packet`), so packets are read one by one
(`PbDec.runLoop_packets`). -/

namespace Sys2Proof.Machine

namespace PbDec

variable {p : Params} {c : PbDec} {chunk : List Byte} {i : Nat}

/-! ## A chunk -/

/-- R226: the chunk is inside the total and fits. -/
theorem chunk_fits (htotal : c.produced + chunk.length ≤ c.total) (hcap : c.out.length + chunk.length ≤ p.outCapacity) :
    c.chunk p chunk i = .more ⟨c.input, i, c.total, c.produced + chunk.length, c.out ++ chunk⟩ := by
  rw [PbDec.chunk, if_neg (Nat.not_lt.2 htotal), emitAll_eq _ _ _ (by omega), if_pos hcap]
  rfl

/-- R226: the chunk crosses the total. -/
theorem chunk_over (htotal : c.total < c.produced + chunk.length) : c.chunk p chunk i = .raised .pixelCountMismatch :=
  if_pos htotal

/-- R62: a chunk that does not fit. -/
theorem chunk_full (hout : c.out.length ≤ p.outCapacity) (htotal : c.produced + chunk.length ≤ c.total)
    (hcap : p.outCapacity < c.out.length + chunk.length) : c.chunk p chunk i = .raised .allocationFailure := by
  rw [PbDec.chunk, if_neg (Nat.not_lt.2 htotal), emitAll_eq _ _ _ hout, if_neg (Nat.not_le.2 hcap)]
  rfl

/-! ## A header -/

theorem literal_inside {n : BitVec 7} (hin : c.i + (n.toNat + 1) ≤ c.input.length) :
    c.literal p n = c.chunk p ((c.input.drop c.i).take (n.toNat + 1)) (c.i + (n.toNat + 1)) :=
  if_neg (Nat.not_lt.2 hin)

theorem literal_short {n : BitVec 7} (hin : c.input.length < c.i + (n.toNat + 1)) :
    c.literal p n = .raised .pixelCountMismatch :=
  if_pos hin

theorem rep_inside {h : BitVec 7} {b : Byte} (hb : c.input[c.i]? = some b) :
    c.rep p h = c.chunk p (List.replicate (129 - h.toNat) b) (c.i + 1) := by rw [PbDec.rep, hb]

theorem rep_short {h : BitVec 7} (hin : c.input.length < c.i + 1) : c.rep p h = .raised .pixelCountMismatch := by
  rw [PbDec.rep, List.getElem?_eq_none (Nat.le_of_lt_succ hin)]

end PbDec

/-- R226: a header takes `used` bytes of the input for its chunk; it fails where they are not there. -/
structure PbDec.Reads (p : Params) (c : PbDec) (turn : Progress PbDec) (chunk : List Byte) (used : Nat) : Prop where
  inside : c.i + used ≤ c.input.length → turn = c.chunk p chunk (c.i + used)
  short : c.input.length < c.i + used → turn = .raised .pixelCountMismatch

theorem PbDec.literal_reads (p : Params) (c : PbDec) (n : BitVec 7) :
    c.Reads p (c.literal p n) ((c.input.drop c.i).take (n.toNat + 1)) (n.toNat + 1) :=
  ⟨literal_inside, literal_short⟩

theorem PbDec.rep_reads (p : Params) (c : PbDec) (h : BitVec 7) {b : Byte} (hb : c.i < c.input.length → c.input[c.i]? = some b) :
    c.Reads p (c.rep p h) (List.replicate (129 - h.toNat) b) 1 :=
  ⟨fun hin => rep_inside (hb hin), rep_short⟩

/-- Settles O35: both headers read a chunk (`PbDec.literal_reads`, `PbDec.rep_reads`), and the chunk is taken or is an error
(`PbDec.chunk_fits`, `PbDec.chunk_over`, `PbDec.chunk_full`). -/
theorem packBitsHeaderTokens : Obligations.PackBitsHeaderTokens := by
  intro s c ha hwf
  have htoken (f : PbDec → Progress PbDec) : onPbDec s f = settle .pbDec .pbDec s (f c) := by simp [onPbDec, ha]
  have hraised {turn : Progress PbDec} {e : ErrorKind} (h : turn = .raised e) :
      settle .pbDec .pbDec s turn = .next (s.ended .pbDec e.status .nothing) := by
    rw [h]
    exact settle_raised_ended _ rfl _
  refine ⟨(htoken _).trans (hraised rfl), fun i chunk used hi => ?_⟩
  obtain ⟨turn, hexec, hreads⟩ :
      ∃ turn, exec i s = settle .pbDec .pbDec s turn ∧ c.Reads s.params turn chunk used := by
    obtain ⟨n, rfl, rfl, rfl⟩ | ⟨h, b, -, rfl, rfl, rfl, hb⟩ := hi
    · exact ⟨_, htoken fun c => c.literal s.params n, PbDec.literal_reads _ c n⟩
    · exact ⟨_, htoken fun c => c.rep s.params h, PbDec.rep_reads _ c h hb⟩
  rw [hexec]
  refine ⟨fun hin htotal hcap => ?_, fun hbad => hraised (e := .pixelCountMismatch) ?_, fun hin htotal hcap =>
    hraised (e := .allocationFailure) ?_⟩
  · rw [hreads.inside hin, PbDec.chunk_fits htotal hcap]
    rfl
  · by_cases hin : c.i + used ≤ c.input.length
    · exact (hreads.inside hin).trans (PbDec.chunk_over (by omega))
    · exact hreads.short (by omega)
  · exact (hreads.inside hin).trans (PbDec.chunk_full (PbDec.out_length hwf) htotal hcap)

/-! ## Packets -/

section

variable (q : PbPacket) (ps : List PbPacket)

theorem pbData_cons : pbData (q :: ps) = q.data ++ pbData ps := List.flatMap_cons
theorem pbBytes_cons : pbBytes (q :: ps) = q.bytes ++ pbBytes ps := List.flatMap_cons
theorem pbData_singleton : pbData [q] = q.data := List.flatMap_singleton ..
theorem pbBytes_singleton : pbBytes [q] = q.bytes := List.flatMap_singleton ..

theorem PbPacket.bytes_length_pos : 1 ≤ q.bytes.length := by cases q <;> simp [bytes]

theorem length_le_pbBytes : ps.length ≤ (pbBytes ps).length := by
  have h := length_le_flatten (l := ps.map PbPacket.bytes) (by simp [PbPacket.bytes_length_pos])
  rwa [List.length_map, ← List.flatMap_def] at h

end

theorem PbPacket.legal_literal_iff {bs : List Byte} : (literal bs).legal = true ↔ 1 ≤ bs.length ∧ bs.length ≤ 128 := by
  simp [legal]

theorem PbPacket.legal_rep_iff {n : Nat} {b : Byte} : (rep n b).legal = true ↔ 2 ≤ n ∧ n ≤ 128 := by simp [legal]

theorem PbPacket.data_length_pos {q : PbPacket} (h : q.legal = true) : 1 ≤ q.data.length := by
  cases q with
  | literal bs => exact (legal_literal_iff.1 h).1
  | rep n b =>
    rw [data, List.length_replicate]
    exact Nat.le_of_succ_le (legal_rep_iff.1 h).1

/-- R89: a legal literal header. -/
theorem decodePb_literal {n : Nat} (hmin : 1 ≤ n) (hmax : n ≤ 128) :
    ∃ k : BitVec 7, decodePb (BitVec.ofNat 8 (n - 1)) = .literal k ∧ k.toNat + 1 = n := by
  have hvalue : (BitVec.ofNat 8 (n - 1)).toNat = n - 1 := by rw [BitVec.toNat_ofNat]; omega
  exact ⟨_, if_pos (by omega), by rw [BitVec.toNat_setWidth, hvalue]; omega⟩

/-- R89: a legal repeat header. -/
theorem decodePb_rep {n : Nat} (hmin : 2 ≤ n) (hmax : n ≤ 128) :
    ∃ k : BitVec 7, decodePb (BitVec.ofNat 8 (257 - n)) = .rep k ∧ 129 - k.toNat = n := by
  have hvalue : (BitVec.ofNat 8 (257 - n)).toNat = 257 - n := by rw [BitVec.toNat_ofNat]; omega
  have hne : BitVec.ofNat 8 (257 - n) ≠ 0x80 := fun h => by
    rw [h] at hvalue
    exact absurd hvalue (by simp; omega)
  exact ⟨_, by rw [decodePb, if_neg (by omega), if_neg hne], by rw [BitVec.toNat_setWidth, hvalue]; omega⟩

/-- The bytes the decoder has not read. -/
def PbDec.rest (c : PbDec) : List Byte := c.input.drop c.i

/-- The decoder after some packets. -/
def PbDec.taken (c : PbDec) (ps : List PbPacket) : PbDec :=
  ⟨c.input, c.i + (pbBytes ps).length, c.total, c.produced + (pbData ps).length, c.out ++ pbData ps⟩

namespace PbDec

variable {p : Params} {c : PbDec} {q : PbPacket} {ps : List PbPacket} {b : Byte} {tail : List Byte}

theorem getElem?_of_rest (h : c.rest = b :: tail) : c.input[c.i]? = some b := by
  rw [← List.head?_drop, ← rest, h]
  rfl

theorem rest_next (h : c.rest = b :: tail) : c.input.drop (c.i + 1) = tail := by
  rw [← List.drop_drop, ← rest, h]
  rfl

theorem taken_rest (h : c.rest = pbBytes ps ++ tail) : (c.taken ps).rest = tail := by
  rw [rest, taken, ← List.drop_drop, ← rest, h, List.drop_left' rfl]

theorem taken_cons (c : PbDec) (q : PbPacket) (ps : List PbPacket) : (c.taken [q]).taken ps = c.taken (q :: ps) := by
  simp [taken, pbBytes, pbData, Nat.add_assoc]

/-- R226: the turn at a header byte. -/
theorem advance_header (hlt : c.produced < c.total) (hrest : c.rest = b :: tail) :
    c.advance p = accept p { c with i := c.i + 1 } (decodePb b) := by
  simp only [advance, turn, if_pos hlt, getElem?_of_rest hrest, Turn.take_token]

/-- R226: the turn at the declared total. -/
theorem advance_total (h : c.total ≤ c.produced) : c.advance p = .done c .ok (.bytes c.out) := by
  simp only [advance, turn, if_neg (Nat.not_lt.2 h), Turn.take_stop]

/-- R226: the turn at the end of the input. -/
theorem advance_end (hlt : c.produced < c.total) (hrest : c.rest = []) : c.advance p = .raised .pixelCountMismatch := by
  have hnone : c.input[c.i]? = none := List.getElem?_eq_none (List.drop_eq_nil_iff.1 hrest)
  simp only [advance, turn, if_pos hlt, hnone, Turn.take_stop]

/-- R226: the turn at a legal packet. -/
theorem advance_packet (hlegal : q.legal = true) (hlt : c.produced < c.total) (hrest : c.rest = q.bytes ++ tail) :
    c.advance p = c.chunk p q.data (c.i + q.bytes.length) := by
  cases q with
  | literal bs =>
    have hdrop : c.input.drop (c.i + 1) = bs ++ tail := rest_next hrest
    obtain ⟨hmin, hmax⟩ := PbPacket.legal_literal_iff.1 hlegal
    obtain ⟨k, hdecode, hk⟩ := decodePb_literal hmin hmax
    have hlen := congrArg List.length hdrop
    rw [List.length_drop, List.length_append] at hlen
    rw [advance_header hlt hrest, hdecode, accept, literal_inside (by dsimp only; omega), hdrop, hk, List.take_left' rfl,
      Nat.add_right_comm]
    rfl
  | rep n b =>
    have hdrop : c.input.drop (c.i + 1) = b :: tail := rest_next hrest
    obtain ⟨hmin, hmax⟩ := PbPacket.legal_rep_iff.1 hlegal
    obtain ⟨k, hdecode, hk⟩ := decodePb_rep hmin hmax
    rw [advance_header hlt hrest, hdecode, accept, rep_inside (getElem?_of_rest (c := { c with i := c.i + 1 }) hdrop), hk]
    rfl

/-- R226: the packets are read one by one. -/
theorem runLoop_packets (hlegal : ∀ q ∈ ps, q.legal = true) (hrest : c.rest = pbBytes ps ++ tail)
    (htotal : c.produced + (pbData ps).length ≤ c.total) (hcap : c.out.length + (pbData ps).length ≤ p.outCapacity)
    (fuel : Nat) : runLoop (advance p) (fuel + ps.length) c = runLoop (advance p) fuel (c.taken ps) := by
  induction ps generalizing c with
  | nil => simp [taken, pbBytes, pbData]
  | cons q ps ih =>
    obtain ⟨hq, hlegal⟩ := List.forall_mem_cons.1 hlegal
    have hpos := PbPacket.data_length_pos hq
    rw [pbBytes_cons, List.append_assoc] at hrest
    rw [pbData_cons, List.length_append] at htotal hcap
    have hmore : c.advance p = .more (c.taken [q]) := by
      rw [advance_packet hq (by omega) hrest, chunk_fits (by omega) (by omega), taken, pbBytes_singleton, pbData_singleton]
    rw [← taken_cons]
    refine (runLoop_more hmore).trans (ih hlegal (taken_rest ?_) ?_ ?_)
    · rwa [pbBytes_singleton]
    · rw [taken, pbData_singleton]
      dsimp only
      omega
    · rw [taken, pbData_singleton, List.length_append]
      omega

/-- R226: what the decoder comes to at the bytes after some packets. -/
theorem run_packets {total : Nat} (hlegal : ∀ q ∈ ps, q.legal = true) (htotal : (pbData ps).length ≤ total)
    (hcap : (pbData ps).length ≤ p.outCapacity) (tail : List Byte) :
    ∃ n c, run p (pbBytes ps ++ tail) total = runLoop (advance p) (n + 1) c ∧ c.rest = tail ∧ c.total = total ∧
      c.produced = (pbData ps).length ∧ c.out = pbData ps := by
  have hlen := length_le_pbBytes ps
  obtain ⟨n, hn⟩ := Nat.exists_eq_add_of_le' (show ps.length ≤ (pbBytes ps ++ tail).length by simp; omega)
  refine ⟨n, taken ⟨pbBytes ps ++ tail, 0, total, 0, []⟩ ps, ?_, taken_rest rfl, rfl, Nat.zero_add _, rfl⟩
  rw [run, hn, Nat.add_right_comm]
  exact runLoop_packets hlegal rfl (by simpa using htotal) (by simpa using hcap) _

end PbDec

section

variable {s : State} (hs : s.ready = true) {ps : List PbPacket} (hlegal : ∀ q ∈ ps, q.legal = true)
  (hcap : (pbData ps).length ≤ s.params.outCapacity)

include hs hlegal hcap

/-- R226: the packets and their total. -/
theorem exec_pbDec_packets (tail : List Byte) :
    exec (.pbDec (pbBytes ps ++ tail) (pbData ps).length) s = .next (s.answered .pbDec .ok (.bytes (pbData ps))) := by
  obtain ⟨n, c, hrun, -, htotal, hproduced, hout⟩ := PbDec.run_packets hlegal le_rfl hcap tail
  have hdone := hrun.trans (runLoop_done (PbDec.advance_total (by omega)))
  rw [hout] at hdone
  exact operation_loop_done hs (run := fun p => PbDec.run p (pbBytes ps ++ tail) (pbData ps).length) hdone

/-- R226, R227: the packets and a larger total, where the turn after them raises an error. -/
theorem exec_pbDec_raised {total : Nat} (htotal : (pbData ps).length < total) {tail : List Byte} {e : ErrorKind}
    (hturn : ∀ c : PbDec, c.rest = tail → c.produced < c.total → c.total = total → c.produced = (pbData ps).length →
      c.advance s.params = .raised e) :
    exec (.pbDec (pbBytes ps ++ tail) total) s = .next (s.answered .pbDec e.status .nothing) := by
  obtain ⟨n, c, hrun, hrest, hctotal, hproduced, -⟩ := PbDec.run_packets hlegal htotal.le hcap tail
  exact operation_loop_raised hs (run := fun p => PbDec.run p (pbBytes ps ++ tail) total) rfl
    (hrun.trans (runLoop_raised (hturn c hrest (by omega) hctotal hproduced)))

end

/-- Settles O34: after the packets the total is reached (`exec_pbDec_packets`), or the next turn raises
(`exec_pbDec_raised`): at the end of the input, at the header 0x80 or at a packet that crosses the total. -/
theorem pbDecExpandsLegalPackets : Obligations.PbDecExpandsLegalPackets := by
  intro s ps hs hlegal hcap
  refine ⟨exec_pbDec_packets hs hlegal hcap, fun total htotal => ⟨?_, fun rest => ?_, fun p rest hp hover => ?_⟩⟩
  · have hend := exec_pbDec_raised hs hlegal hcap htotal (tail := []) fun c hrest hlt _ _ => PbDec.advance_end hlt hrest
    rwa [List.append_nil] at hend
  · exact exec_pbDec_raised hs hlegal hcap htotal (e := .corruptBitstream) fun c hrest hlt _ _ =>
      PbDec.advance_header hlt hrest
  · rw [List.append_assoc]
    refine exec_pbDec_raised hs hlegal hcap htotal (e := .pixelCountMismatch) fun c hrest hlt hctotal hproduced => ?_
    exact (PbDec.advance_packet hp hlt hrest).trans (PbDec.chunk_over (by omega))

end Sys2Proof.Machine
end

section
/-! O36 and O37. The turn at a packet of the count/value decoder takes its run or crosses the total (`CvDec.advance_packet`), so
packets are read one by one (`CvDec.runLoop_packets`). The encoder emits the packets of its runs (`CvEnc.runLoop_pending`),
which hold their samples and have their expansion (`cvPackets_runTotal`, `cvPackets_expansion`). -/

namespace Sys2Proof.Machine

/-! ## The packets of the decoder -/

section

variable (q : CvRun) (packets : List CvRun)

theorem cvBytes_cons : cvBytes (q :: packets) = cvBytes [q] ++ cvBytes packets := by simp [cvBytes]

theorem cvBytes_singleton : cvBytes [q] = q.sample ++ [BitVec.ofNat 8 (q.count - 1)] := by simp [cvBytes]

theorem runTotal_cons : runTotal (q :: packets) = q.count + runTotal packets := List.sum_cons

theorem length_le_cvBytes : packets.length ≤ (cvBytes packets).length := by
  have h := length_le_flatten (l := packets.map fun r => r.sample ++ [BitVec.ofNat 8 (r.count - 1)]) (by simp)
  rwa [List.length_map, ← List.flatMap_def] at h

end

/-- R116: a count byte holds a count of 1 to 256. -/
theorem countByte_toNat {n : Nat} (hmin : 1 ≤ n) (hmax : n ≤ 256) : (BitVec.ofNat 8 (n - 1)).toNat + 1 = n := by
  rw [BitVec.toNat_ofNat]
  omega

/-- R90: a packet at the front of the bytes. -/
theorem decodeCv_packet (q : CvRun) (tail : List Byte) :
    decodeCv q.sample.length (cvBytes [q] ++ tail) = some (q.sample, BitVec.ofNat 8 (q.count - 1)) := by
  simp [decodeCv, cvBytes_singleton]

/-- R90: no whole packet is left. -/
theorem decodeCv_short {n : Nat} {part : List Byte} (h : part.length ≤ n) : decodeCv n part = none := by
  rw [decodeCv, List.drop_eq_nil_of_le h]

/-- The bytes the decoder has not read. -/
def CvDec.rest (c : CvDec) : List Byte := c.input.drop c.i

/-- The decoder after some packets. -/
def CvDec.taken (c : CvDec) (packets : List CvRun) : CvDec :=
  ⟨c.input, c.i + (cvBytes packets).length, c.total, c.produced + runTotal packets, c.runs ++ packets⟩

/-- R235: a packet that a decoder reads: a sample of its length and a count of 1 to 256. -/
def LegalCvPacket (p : Params) (q : CvRun) : Prop := q.sample.length = p.sampleBytes ∧ 1 ≤ q.count ∧ q.count ≤ 256

namespace CvDec

variable {p : Params} {c : CvDec} {q : CvRun} {packets : List CvRun} {tail : List Byte}

theorem taken_rest (h : c.rest = cvBytes packets ++ tail) : (c.taken packets).rest = tail := by
  rw [rest, taken, ← List.drop_drop, ← rest, h, List.drop_left' rfl]

theorem taken_cons (c : CvDec) (q : CvRun) (packets : List CvRun) : (c.taken [q]).taken packets = c.taken (q :: packets) := by
  simp [taken, cvBytes_cons q packets, runTotal, Nat.add_assoc]

/-- R235: the turn at the declared total. -/
theorem advance_total (h : c.total ≤ c.produced) : c.advance p = .done c .ok (.runs c.runs) := by
  simp only [advance, turn, if_neg (Nat.not_lt.2 h), Turn.take_stop]

/-- R235: the turn where no whole packet is left. -/
theorem advance_short (hlt : c.produced < c.total) (h : c.rest.length ≤ p.sampleBytes) :
    c.advance p = .raised .pixelCountMismatch := by
  have hnone : decodeCv p.sampleBytes (c.input.drop c.i) = none := decodeCv_short h
  simp only [advance, turn, if_pos hlt, hnone, Turn.take_stop]

/-- R235: the turn at a packet. -/
theorem advance_packet (hq : LegalCvPacket p q) (hlt : c.produced < c.total) (hrest : c.rest = cvBytes [q] ++ tail) :
    c.advance p = if c.total < c.produced + q.count then .raised .pixelCountMismatch else .more (c.taken [q]) := by
  obtain ⟨hsample, hmin, hmax⟩ := hq
  have hpacket : decodeCv p.sampleBytes (c.input.drop c.i) = some (q.sample, BitVec.ofNat 8 (q.count - 1)) := by
    rw [← rest, hrest, ← hsample, decodeCv_packet]
  simp only [advance, turn, if_pos hlt, hpacket, Turn.take_token, packet, countByte_toNat hmin hmax, taken,
    cvBytes_singleton, List.length_append, List.length_singleton, hsample]
  rfl

/-- R235: the packets are read one by one. -/
theorem runLoop_packets (hpackets : ∀ q ∈ packets, LegalCvPacket p q) (hrest : c.rest = cvBytes packets ++ tail)
    (htotal : c.produced + runTotal packets ≤ c.total) (fuel : Nat) :
    runLoop (advance p) (fuel + packets.length) c = runLoop (advance p) fuel (c.taken packets) := by
  induction packets generalizing c with
  | nil => simp [taken, cvBytes, runTotal]
  | cons q packets ih =>
    obtain ⟨hq, hpackets⟩ := List.forall_mem_cons.1 hpackets
    obtain ⟨-, hmin, -⟩ := id hq
    rw [cvBytes_cons, List.append_assoc] at hrest
    rw [runTotal_cons] at htotal
    have hmore : c.advance p = .more (c.taken [q]) := by rw [advance_packet hq (by omega) hrest, if_neg (by omega)]
    have htotal' : c.produced + q.count + runTotal packets ≤ c.total := by omega
    rw [← taken_cons]
    exact (runLoop_more hmore).trans (ih hpackets (taken_rest hrest) htotal')

/-- R235: what the decoder comes to at the bytes after some packets. -/
theorem run_packets {total : Nat} (hpackets : ∀ q ∈ packets, LegalCvPacket p q) (htotal : runTotal packets ≤ total)
    (tail : List Byte) :
    ∃ n c, run p (cvBytes packets ++ tail) total = runLoop (advance p) (n + 1) c ∧ c.rest = tail ∧ c.total = total ∧
      c.produced = runTotal packets ∧ c.runs = packets := by
  have hlen := length_le_cvBytes packets
  obtain ⟨n, hn⟩ := Nat.exists_eq_add_of_le' (show packets.length ≤ (cvBytes packets ++ tail).length by simp; omega)
  refine ⟨n, taken ⟨cvBytes packets ++ tail, 0, total, 0, []⟩ packets, ?_, taken_rest rfl, rfl, Nat.zero_add _, rfl⟩
  rw [run, hn, Nat.add_right_comm]
  exact runLoop_packets hpackets rfl (by simpa using htotal) _

end CvDec

section

variable {s : State} (hs : s.ready = true) {packets : List CvRun} (hpackets : ∀ q ∈ packets, LegalCvPacket s.params q)

include hs hpackets

/-- R235: the packets and their total. -/
theorem exec_cvDec_packets (tail : List Byte) :
    exec (.cvDec (cvBytes packets ++ tail) (runTotal packets)) s = .next (s.answered .cvDec .ok (.runs packets)) := by
  obtain ⟨n, c, hrun, -, htotal, hproduced, hruns⟩ := CvDec.run_packets hpackets le_rfl tail
  have hdone := hrun.trans (runLoop_done (CvDec.advance_total (by omega)))
  rw [hruns] at hdone
  exact operation_loop_done hs (run := fun p => CvDec.run p (cvBytes packets ++ tail) (runTotal packets)) hdone

/-- R235: the packets and a larger total, where the turn after them fails. -/
theorem exec_cvDec_mismatch {total : Nat} (htotal : runTotal packets < total) {tail : List Byte}
    (hturn : ∀ c : CvDec, c.rest = tail → c.produced < c.total → c.total = total → c.produced = runTotal packets →
      c.advance s.params = .raised .pixelCountMismatch) :
    exec (.cvDec (cvBytes packets ++ tail) total) s = .next (s.answered .cvDec .pixelCountMismatch .nothing) := by
  obtain ⟨n, c, hrun, hrest, hctotal, hproduced, -⟩ := CvDec.run_packets hpackets htotal.le tail
  exact operation_loop_raised hs (run := fun p => CvDec.run p (cvBytes packets ++ tail) total) rfl
    (hrun.trans (runLoop_raised (hturn c hrest (by omega) hctotal hproduced)))

end

/-- Settles O37: after the packets the total is reached (`exec_cvDec_packets`), or the next turn fails
(`exec_cvDec_mismatch`): no whole packet is left, or the next one crosses the total. -/
theorem cvDecReturnsOneRunPerPacket : Obligations.CvDecReturnsOneRunPerPacket := by
  intro s packets hs hpackets
  refine ⟨exec_cvDec_packets hs hpackets, fun total htotal => ⟨fun part hpart => ?_, fun r rest hsample hmin hmax hover => ?_⟩⟩
  · exact exec_cvDec_mismatch hs hpackets htotal fun c hrest hlt _ _ => CvDec.advance_short hlt (by rwa [hrest])
  · rw [List.append_assoc]
    refine exec_cvDec_mismatch hs hpackets htotal fun c hrest hlt hctotal hproduced => ?_
    have hcross : c.total < c.produced + r.count := by
      rw [hctotal, hproduced]
      exact hover
    rw [CvDec.advance_packet ⟨hsample, hmin, hmax⟩ hlt hrest, if_pos hcross]

/-! ## The split of a run -/

/-- R232: a run of at most 255 samples is one packet. -/
theorem cvSplit_of_le {r : CvRun} (hmin : 1 ≤ r.count) (hmax : r.count ≤ 255) : cvSplit r = [r] := by
  obtain hfull | hlt := Nat.eq_or_lt_of_le hmax
  · obtain ⟨sample, count⟩ := r
    subst hfull
    simp [cvSplit]
  · simp [cvSplit, Nat.div_eq_of_lt hlt, Nat.mod_eq_of_lt hlt, Nat.ne_of_gt hmin]

/-- R232: the first packet of a longer run. -/
theorem cvSplit_of_lt {r : CvRun} (h : 255 < r.count) :
    cvSplit r = { r with count := 255 } :: cvSplit { r with count := r.count - 255 } := by
  have hdiv : r.count / 255 = (r.count - 255) / 255 + 1 := Nat.div_eq_sub_div (by decide) h.le
  have hmod : r.count % 255 = (r.count - 255) % 255 := Nat.mod_eq_sub_mod h.le
  rw [cvSplit, hdiv, hmod, List.replicate_succ, List.cons_append]
  rfl

section

variable (r : CvRun)

/-- R232: the packets of a run hold its samples. -/
theorem cvSplit_runTotal : runTotal (cvSplit r) = r.count := by
  have hcount := Nat.div_add_mod' r.count 255
  rw [runTotal, cvSplit, List.map_append, List.map_replicate, List.sum_append_nat, List.sum_replicate_nat]
  split
  · next hrest => rwa [hrest] at hcount
  · exact hcount

/-- R233: a packet holds the sample of its run and at most 255 copies. -/
theorem cvSplit_bounds {q : CvRun} (h : q ∈ cvSplit r) : q.sample = r.sample ∧ 1 ≤ q.count ∧ q.count ≤ 255 := by
  obtain hfull | hrest := List.mem_append.1 h
  · rw [List.eq_of_mem_replicate hfull]
    exact ⟨rfl, Nat.le_add_left 1 254, le_rfl⟩
  · split at hrest
    · cases hrest
    · rw [List.mem_singleton.1 hrest]
      exact ⟨rfl, by dsimp only; omega, by dsimp only; omega⟩

/-- R236: the packets of a run have its expansion. -/
theorem cvSplit_expansion :
    ((cvSplit r).flatMap fun q => List.replicate q.count q.sample) = List.replicate r.count r.sample := by
  have hcount := Nat.div_add_mod' r.count 255
  rw [cvSplit, List.flatMap_append, List.flatMap_replicate, List.flatten_replicate_replicate]
  dsimp only
  split
  · next hrest =>
    rw [hrest, Nat.add_zero] at hcount
    rw [hcount, List.flatMap_nil, List.append_nil]
  · rw [List.flatMap_singleton, List.replicate_append_replicate, hcount]

end

section

variable (runs : List CvRun)

theorem cvPackets_runTotal : runTotal (runs.flatMap cvSplit) = runTotal runs := by
  induction runs with
  | nil => rfl
  | cons r runs ih =>
    have hsplit := cvSplit_runTotal r
    rw [List.flatMap_cons, runTotal_cons, ← ih, ← hsplit]
    simp only [runTotal, List.map_append, List.sum_append]

theorem cvPackets_expansion :
    ((runs.flatMap cvSplit).flatMap fun q => List.replicate q.count q.sample) =
      runs.flatMap fun r => List.replicate r.count r.sample := by
  simp only [List.flatMap_assoc, cvSplit_expansion]

theorem cvPackets_legal {p : Params} {runs : List CvRun} (hsample : ∀ r ∈ runs, r.sample.length = p.sampleBytes) :
    ∀ q ∈ runs.flatMap cvSplit, LegalCvPacket p q := by
  intro q hq
  obtain ⟨r, hr, hqr⟩ := List.mem_flatMap.1 hq
  obtain ⟨hqs, hmin, hmax⟩ := cvSplit_bounds r hqr
  exact ⟨hqs ▸ hsample r hr, hmin, by omega⟩

end

/-! ## The encoder -/

/-- R232: the packets the encoder has still to emit. -/
def CvEnc.pending (c : CvEnc) : List CvRun := (c.split.toList ++ c.todo).flatMap cvSplit

namespace CvEnc

variable {p : Params} {c : CvEnc}

theorem pending_split {r : CvRun} (hsplit : c.split = some r) :
    c.pending = cvSplit r ++ pending { c with split := none } := by
  simp only [pending, hsplit, Option.toList_some, List.flatMap_append, List.flatMap_singleton]
  rfl

/-- R231, R232: the turn inside a run emits its next packet. -/
theorem advance_split {r : CvRun} (hsplit : c.split = some r) (hpos : 1 ≤ r.count) :
    ∃ q split', c.pending = q :: pending { c with split := split' } ∧
      c.advance p = Progress.ofExcept (fun out => .more { c with out := out, split := split' })
        (emitAll p.outCapacity c.out (cvBytes [q])) := by
  obtain hgt | hle := Nat.lt_or_ge 255 r.count
  · refine ⟨{ r with count := 255 }, some { r with count := r.count - 255 }, ?_, ?_⟩
    · rw [pending_split hsplit, cvSplit_of_lt hgt, List.cons_append]
      rfl
    · simp only [advance, hsplit, cvMaxPacket, Nat.min_eq_right hgt.le, cvBytes_singleton, if_neg (Nat.ne_of_gt hgt)]
  · refine ⟨r, none, ?_, ?_⟩
    · rw [pending_split hsplit, cvSplit_of_le hpos hle, List.singleton_append]
    · simp only [advance, hsplit, cvMaxPacket, Nat.min_eq_left hle, cvBytes_singleton, if_true]

/-- R231: the turn between two runs begins the next one. -/
theorem advance_next {r : CvRun} (hsplit : c.split = none) (hr : c.runs[c.i]? = some r) :
    ∃ c', c.advance p = .more c' ∧ c'.out = c.out ∧ c'.pending = c.pending := by
  refine ⟨{ c with i := c.i + 1, split := some r }, by simp only [advance, hsplit, hr], rfl, ?_⟩
  obtain ⟨hlt, hget⟩ := List.getElem?_eq_some_iff.1 hr
  simp only [pending, todo, hsplit, List.drop_eq_getElem_cons hlt, hget]
  rfl

/-- R231: the turn after the last run. -/
theorem advance_end (hsplit : c.split = none) (hr : c.runs[c.i]? = none) :
    c.advance p = .done c .ok (.bytes c.out) ∧ c.pending = [] := by
  have htodo : c.todo = [] := List.drop_eq_nil_of_le (List.getElem?_eq_none_iff.1 hr)
  exact ⟨by simp only [advance, hsplit, hr], by rw [pending, hsplit, htodo]; rfl⟩

/-- R231: the encoder emits its pending packets. -/
theorem runLoop_pending {fuel : Nat} (hsplit : c.split.all fun r => decide (0 < r.count))
    (hruns : c.runs.all fun r => decide (0 < r.count)) (hfuel : c.measure < fuel) :
    ∃ d, runLoop (advance p) fuel c = Progress.ofExcept (fun out => .done d .ok (.bytes out))
      (emitAll p.outCapacity c.out (cvBytes c.pending)) := by
  induction fuel generalizing c with
  | zero => exact absurd hfuel (Nat.not_lt_zero _)
  | succ n ih =>
    have hnext {c' : CvEnc} (hmore : c.advance p = .more c') := by
      obtain ⟨hsplit', hruns', -, hmeasure⟩ := advance_more hsplit hruns hmore
      exact ih (c := c') hsplit' (hruns' ▸ hruns) (by omega)
    cases hs : c.split with
    | none =>
      cases hr : c.runs[c.i]? with
      | none =>
        obtain ⟨hdone, hpending⟩ := advance_end (p := p) hs hr
        exact ⟨c, by rw [runLoop_done hdone, hpending]; rfl⟩
      | some r =>
        obtain ⟨c', hmore, hout, hpending⟩ := advance_next (p := p) hs hr
        rw [runLoop_more hmore, ← hout, ← hpending]
        exact hnext hmore
    | some r =>
      have hpos : 0 < r.count := by simpa [hs] using hsplit
      obtain ⟨q, split', hpending, hturn⟩ := advance_split (p := p) hs hpos
      rw [runLoop_ofExcept hturn, hpending, cvBytes_cons q (pending _), emitAll_append]
      cases hemit : emitAll p.outCapacity c.out (cvBytes [q]) with
      | error e => exact ⟨c, rfl⟩
      | ok out =>
        rw [hemit] at hturn
        exact hnext hturn

/-- R231: the operation emits the packets of the runs. -/
theorem run_eq {runs : List CvRun} (hok : runs.all (CvRun.ok p) = true) :
    ∃ d, run p runs = Progress.ofExcept (fun out => .done d .ok (.bytes out))
      (emitAll p.outCapacity [] (cvBytes (runs.flatMap cvSplit))) := by
  have hpos : (runs.all fun r => decide (0 < r.count)) = true := by
    refine List.all_eq_true.2 fun r hr => decide_eq_true ?_
    exact (CvRun.ok_iff.1 (List.all_eq_true.1 hok r hr)).2.1
  have hfuel : (fresh runs).measure < runs.length + runTotal runs + 1 := by simp [measure, todo, fresh]
  exact runLoop_pending rfl hpos hfuel

end CvEnc

section

variable {s : State} (hs : s.ready = true) {runs : List CvRun} (hok : runs.all (CvRun.ok s.params) = true)

include hs hok

/-- R231, R23: runs whose counts do not sum to the total. -/
theorem exec_cvEnc_mismatch {total : Nat} (htotal : runTotal runs ≠ total) :
    exec (.cvEnc runs total) s = .next (s.answered .cvEnc .pixelCountMismatch .nothing) := by
  rw [exec, execCvEnc, operation_ready hs, State.popDraw_params, if_neg (by simp [hok]), if_pos htotal]
  exact congrArg _ (State.popDraw_finish (State.active_of_ready hs) ..)

/-- R231: runs and their total are encoded. -/
theorem exec_cvEnc_total :
    exec (.cvEnc runs (runTotal runs)) s =
      operation .cvEnc s fun s => settle .cvEnc .cvEnc (s.openSession .cvEnc) (CvEnc.run s.params runs) := by
  rw [exec, execCvEnc, operation_ready hs, operation_ready hs, State.popDraw_params, if_neg (by simp [hok]),
    if_neg (not_not.2 rfl)]

end

/-- Settles O36: the runs are checked, and then the operation emits their packets (`CvEnc.run_eq`), which fit or do not;
`CV_DEC` returns one run for each of them (`exec_cvDec_packets`). -/
theorem cvEncSplitsEachRun : Obligations.CvEncSplitsEachRun := by
  intro s runs total hs
  refine ⟨fun hbad => execCvEnc_invalidOperand hs ?_ total, fun hruns => ?_⟩
  · obtain ⟨r, hr, hbad⟩ := hbad
    refine List.all_eq_false.2 ⟨r, hr, fun hok => ?_⟩
    obtain ⟨hsample, hmin, hmax⟩ := CvRun.ok_iff.1 hok
    unfold runCountMax at hmax
    omega
  have hok : runs.all (CvRun.ok s.params) = true := List.all_eq_true.2 fun r hr => CvRun.ok_iff.2 (hruns r hr)
  refine ⟨exec_cvEnc_mismatch hs hok, ?_⟩
  rintro rfl
  obtain ⟨d, hrun⟩ := CvEnc.run_eq hok
  rw [emitAll_eq _ _ _ (Nat.zero_le _)] at hrun
  have hexec := exec_cvEnc_total hs hok
  refine ⟨fun hcap => ⟨?_, fun u hu hbytes => ?_⟩, fun hcap => ?_⟩
  · rw [if_pos (by simpa using hcap)] at hrun
    exact hexec.trans (operation_loop_done hs (run := fun p => CvEnc.run p runs) hrun)
  · have hdec := exec_cvDec_packets hu (cvPackets_legal fun r hr => (hruns r hr).1.trans hbytes.symm) []
    rw [List.append_nil, cvPackets_runTotal] at hdec
    exact ⟨_, hdec, cvPackets_expansion runs⟩
  · rw [if_neg (by simpa using hcap)] at hrun
    exact hexec.trans (operation_loop_raised hs (run := fun p => CvEnc.run p runs) rfl hrun)

end Sys2Proof.Machine
end

section
/-! O33. The turn of the PackBits encoder emits the packet at the front of its bytes (`pbPacketAt`, `pbEncTurn_packet`), which is
the greedy one (`pbPacketAt_greedy`), so the operation emits the greedy packets of its input (`pbPackets`,
`runLoop_pbEncTurn`). -/

namespace Sys2Proof.Machine

/-! ## The front of the bytes -/

/-- R221: the copies of a byte at the front of some bytes, at most `n`. -/
theorem leadingCopies (b : Byte) (n : Nat) (l : List Byte) :
    ∃ k after, ((l.take n).takeWhile (· == b)).length = k ∧ l = List.replicate k b ++ after ∧ k ≤ n ∧
      (k = n ∨ after.head? ≠ some b) := by
  induction n generalizing l with
  | zero => exact ⟨0, l, rfl, rfl, le_rfl, .inl rfl⟩
  | succ n ih =>
    cases l with
    | nil => exact ⟨0, [], rfl, rfl, Nat.zero_le _, .inr nofun⟩
    | cons x xs =>
      by_cases hx : x = b
      · obtain ⟨k, after, hk, hxs, hle, hend⟩ := ih xs
        refine ⟨k + 1, after, ?_, ?_, by omega, hend.imp_left (congrArg _)⟩
        · simp [hx, hk]
        · rw [hx, hxs, List.replicate_succ, List.cons_append]
      · exact ⟨0, x :: xs, by simp [hx], rfl, Nat.zero_le _, .inr (by simpa using hx)⟩

/-- R221: the run at the front of the input. -/
theorem pbRunLength_spec (b : Byte) (bs : List Byte) :
    ∃ after, b :: bs = List.replicate (pbRunLength (b :: bs)) b ++ after ∧ pbRunLength (b :: bs) ≤ 128 ∧
      (pbRunLength (b :: bs) = 128 ∨ after.head? ≠ some b) := by
  obtain ⟨k, after, hk, hbs, hle, hend⟩ := leadingCopies b 127 bs
  have hrun : pbRunLength (b :: bs) = k + 1 := by rw [← hk, Nat.add_comm]; rfl
  refine ⟨after, ?_, by omega, hend.imp_left (by omega)⟩
  rw [hrun, List.replicate_succ, List.cons_append, ← hbs]

/-- R223: three equal bytes at the front. -/
theorem pbStartsRepeat_iff {l : List Byte} : pbStartsRepeat l = true ↔ ∃ x, [x, x, x] <+: l := by
  match l with
  | [] => simp [pbStartsRepeat]
  | [a] => simp [pbStartsRepeat]
  | [a, b] => simp [pbStartsRepeat]
  | a :: b :: c :: l =>
    simp only [pbStartsRepeat, Bool.and_eq_true, beq_iff_eq, List.cons_prefix_cons, List.nil_prefix, and_true]
    exact ⟨fun ⟨hab, hbc⟩ => ⟨a, rfl, hab, hab.trans hbc⟩, fun ⟨x, ha, hb, hc⟩ => ⟨ha ▸ hb, hb ▸ hc⟩⟩

/-- R223: no three equal bytes begin inside the literal at the front, which ends at them, at `fuel` or at the end. -/
theorem pbLiteralLength_spec (fuel : Nat) (l : List Byte) :
    pbLiteralLength fuel l ≤ fuel ∧ (∀ j < pbLiteralLength fuel l, pbStartsRepeat (l.drop j) = false) ∧
      (pbLiteralLength fuel l = fuel ∨ l.drop (pbLiteralLength fuel l) = [] ∨
        pbStartsRepeat (l.drop (pbLiteralLength fuel l)) = true) := by
  induction fuel generalizing l with
  | zero => exact ⟨le_rfl, fun j hj => absurd hj (Nat.not_lt_zero j), .inl rfl⟩
  | succ n ih =>
    cases l with
    | nil => exact ⟨Nat.zero_le _, fun j hj => absurd hj (Nat.not_lt_zero j), .inr (.inl rfl)⟩
    | cons b bs =>
      obtain ⟨hle, hnone, hend⟩ := ih bs
      rw [pbLiteralLength]
      split
      · next hstart => exact ⟨Nat.zero_le _, fun j hj => absurd hj (Nat.not_lt_zero j), .inr (.inr hstart)⟩
      · next hstart =>
        rw [Nat.add_comm 1]
        refine ⟨Nat.succ_le_succ hle, fun j hj => ?_, hend.imp_left (congrArg _)⟩
        cases j with
        | zero => exact Bool.of_not_eq_true hstart
        | succ j => exact hnone j (Nat.lt_of_succ_lt_succ hj)

/-! ## Greedy packets -/

/-- R222, R223: a packet is as long as it may be before the bytes after it. -/
def PbPacket.Greedy (after : List Byte) : PbPacket → Prop
  | .literal bs =>
    (∀ j < bs.length, ∀ x, ¬ [x, x, x] <+: (bs ++ after).drop j) ∧
      (bs.length = 127 ∨ after = [] ∨ ∃ x, [x, x, x] <+: after)
  | .rep n b => n = 128 ∨ after.head? ≠ some b

/-- R221: the packet of the encoder's turn at these bytes. -/
def pbPacketAt (b : Byte) (bs : List Byte) : PbPacket :=
  if 3 ≤ pbRunLength (b :: bs) then .rep (pbRunLength (b :: bs)) b
  else .literal ((b :: bs).take (pbLiteralLength 127 (b :: bs)))

namespace PbPacket

variable {q : PbPacket} {ps : List PbPacket}

theorem emitted_literal_iff {bs : List Byte} : (literal bs).emitted = true ↔ 1 ≤ bs.length ∧ bs.length ≤ 127 := by
  simp [emitted]

theorem emitted_rep_iff {n : Nat} {b : Byte} : (rep n b).emitted = true ↔ 3 ≤ n ∧ n ≤ 128 := by simp [emitted]

theorem legal_of_emitted (h : q.emitted = true) : q.legal = true := by
  cases q with
  | literal bs =>
    obtain ⟨hmin, hmax⟩ := emitted_literal_iff.1 h
    exact legal_literal_iff.2 ⟨hmin, by omega⟩
  | rep n b =>
    obtain ⟨hmin, hmax⟩ := emitted_rep_iff.1 h
    exact legal_rep_iff.2 ⟨by omega, hmax⟩

/-- R225: the headers of an encoder. -/
theorem header_of_emitted (h : q.emitted = true) :
    ∃ h, q.bytes.head? = some h ∧ (h.toNat ≤ 0x7E ∨ 0x81 ≤ h.toNat ∧ h.toNat ≤ 0xFE) := by
  cases q with
  | literal bs =>
    obtain ⟨hmin, hmax⟩ := emitted_literal_iff.1 h
    exact ⟨_, rfl, .inl (by rw [BitVec.toNat_ofNat]; omega)⟩
  | rep n b =>
    obtain ⟨hmin, hmax⟩ := emitted_rep_iff.1 h
    exact ⟨_, rfl, .inr (by rw [BitVec.toNat_ofNat]; omega)⟩

/-- R228: a packet takes at most twice its data. -/
theorem bytes_length_le (h : q.emitted = true) : q.bytes.length ≤ 2 * q.data.length := by
  have hpos := data_length_pos (legal_of_emitted h)
  cases q with
  | literal bs => simp only [bytes, data, List.length_cons] at hpos ⊢; omega
  | rep n b => simp only [bytes, data, List.length_cons, List.length_nil] at hpos ⊢; omega

end PbPacket

section

variable (b : Byte) (bs : List Byte)

/-- R222, R223: the packet of a turn is one an encoder emits, stands at the front and is greedy. -/
theorem pbPacketAt_spec :
    (pbPacketAt b bs).emitted = true ∧
      ∃ after, b :: bs = (pbPacketAt b bs).data ++ after ∧ (pbPacketAt b bs).Greedy after := by
  unfold pbPacketAt
  split
  · next hmin =>
    obtain ⟨after, happend, hmax, hend⟩ := pbRunLength_spec b bs
    exact ⟨PbPacket.emitted_rep_iff.2 ⟨hmin, hmax⟩, after, happend, hend⟩
  · next hshort =>
    obtain ⟨hmax, hnone, hend⟩ := pbLiteralLength_spec 127 (b :: bs)
    have hmin : 0 < pbLiteralLength 127 (b :: bs) := pbLiteralLength_pos (Nat.lt_of_not_le hshort)
    have hlen : ((b :: bs).take (pbLiteralLength 127 (b :: bs))).length = pbLiteralLength 127 (b :: bs) :=
      List.length_take_of_le (pbLiteralLength_le _ _)
    refine ⟨PbPacket.emitted_literal_iff.2 (by omega), _, (List.take_append_drop ..).symm, ?_, ?_⟩
    · rw [hlen, List.take_append_drop]
      intro j hj x hx
      exact Bool.false_ne_true ((hnone j hj).symm.trans (pbStartsRepeat_iff.2 ⟨x, hx⟩))
    · rw [hlen]
      exact hend.imp_right (Or.imp_right pbStartsRepeat_iff.1)

theorem pbPacketAt_length_pos : 1 ≤ (pbPacketAt b bs).data.length :=
  PbPacket.data_length_pos (PbPacket.legal_of_emitted (pbPacketAt_spec b bs).1)

/-- The bytes after the packet of a turn. -/
def pbAfter : List Byte := (b :: bs).drop (pbPacketAt b bs).data.length

theorem pbPacketAt_append_after : (pbPacketAt b bs).data ++ pbAfter b bs = b :: bs := by
  obtain ⟨-, after, happend, -⟩ := pbPacketAt_spec b bs
  rw [pbAfter, happend, List.drop_left' rfl]

theorem pbPacketAt_greedy : (pbPacketAt b bs).Greedy (pbAfter b bs) := by
  obtain ⟨-, after, happend, hgreedy⟩ := pbPacketAt_spec b bs
  rwa [pbAfter, happend, List.drop_left' rfl]

theorem pbAfter_length_lt : (pbAfter b bs).length < (b :: bs).length := by
  have hpos := pbPacketAt_length_pos b bs
  rw [pbAfter, List.length_drop, List.length_cons]
  omega

/-- R221: the turn of the encoder emits the packet at the front. -/
theorem pbEncTurn_packet {p : Params} {c : ByteCoder} (h : c.rest = b :: bs) :
    pbEncTurn p c =
      Progress.ofExcept (fun out => .more { c with out := out, i := c.i + (pbPacketAt b bs).data.length })
        (emitAll p.outCapacity c.out (pbPacketAt b bs).bytes) := by
  have hlen : ((b :: bs).take (pbLiteralLength 127 (b :: bs))).length = pbLiteralLength 127 (b :: bs) :=
    List.length_take_of_le (pbLiteralLength_le _ _)
  have hemit (bytes : List Byte) (i : Nat) : Progress.ofExcept .more (c.emitAt p bytes i) =
      Progress.ofExcept (fun out => .more { c with out := out, i := i }) (emitAll p.outCapacity c.out bytes) := by
    rw [ByteCoder.emitAt]
    cases emitAll p.outCapacity c.out bytes <;> rfl
  simp only [pbEncTurn, h, hemit, pbPacketAt, pbMinRepeat]
  split
  · simp only [PbPacket.data, PbPacket.bytes, List.length_replicate]
  · simp only [PbPacket.data, PbPacket.bytes, hlen, pbMaxLiteral]

end

/-- R221: the packets of an input, each the one at the front of the bytes left. -/
def pbPackets : List Byte → List PbPacket
  | [] => []
  | b :: bs => pbPacketAt b bs :: pbPackets (pbAfter b bs)
termination_by l => l.length
decreasing_by exact pbAfter_length_lt b bs

@[simp] theorem pbPackets_nil : pbPackets [] = [] := by rw [pbPackets]

theorem pbPackets_cons (b : Byte) (bs : List Byte) : pbPackets (b :: bs) = pbPacketAt b bs :: pbPackets (pbAfter b bs) := by
  rw [pbPackets]

section

variable (input : List Byte)

theorem pbData_pbPackets : pbData (pbPackets input) = input := by
  induction input using pbPackets.induct with
  | case1 => rw [pbPackets_nil]; rfl
  | case2 b bs ih => rw [pbPackets_cons, pbData_cons, ih, pbPacketAt_append_after]

theorem pbPackets_emitted : ∀ q ∈ pbPackets input, q.emitted = true := by
  induction input using pbPackets.induct with
  | case1 => simp
  | case2 b bs ih =>
    rw [pbPackets_cons]
    exact List.forall_mem_cons.2 ⟨(pbPacketAt_spec b bs).1, ih⟩

theorem pbPackets_legal : ∀ q ∈ pbPackets input, q.legal = true := fun q hq =>
  PbPacket.legal_of_emitted (pbPackets_emitted input q hq)

/-- R222, R223: every packet is greedy. -/
theorem pbPackets_greedy {pre post : List PbPacket} {q : PbPacket} (h : pbPackets input = pre ++ q :: post) :
    q.Greedy (pbData post) := by
  induction input using pbPackets.induct generalizing pre with
  | case1 => simp at h
  | case2 b bs ih =>
    rw [pbPackets_cons] at h
    cases pre with
    | nil =>
      obtain ⟨rfl, rfl⟩ := List.cons.inj h
      rw [pbData_pbPackets]
      exact pbPacketAt_greedy b bs
    | cons x pre => exact ih (List.cons.inj h).2

/-- R62, R221: the encoder emits the packets of its input. -/
theorem runLoop_pbEncTurn {p : Params} {c : ByteCoder} {fuel : Nat} (h : c.rest = input) (hfuel : input.length < fuel) :
    ∃ d, runLoop (pbEncTurn p) fuel c = Progress.ofExcept (fun out => .done d .ok (.bytes out))
      (emitAll p.outCapacity c.out (pbBytes (pbPackets input))) := by
  induction input using pbPackets.induct generalizing c fuel with
  | case1 =>
    obtain ⟨n, rfl⟩ := Nat.exists_eq_add_one.2 hfuel
    have hdone : pbEncTurn p c = .done c .ok (.bytes c.out) := by simp only [pbEncTurn, h]
    refine ⟨c, ?_⟩
    rw [runLoop_done hdone, pbPackets_nil]
    rfl
  | case2 b bs ih =>
    obtain ⟨n, rfl⟩ := Nat.exists_eq_add_one.2 (Nat.zero_lt_of_lt hfuel)
    rw [runLoop_ofExcept (pbEncTurn_packet b bs h), pbPackets_cons, pbBytes_cons, emitAll_append]
    cases emitAll p.outCapacity c.out (pbPacketAt b bs).bytes with
    | error e => exact ⟨c, rfl⟩
    | ok out =>
      refine ih (c := { c with out := out, i := c.i + (pbPacketAt b bs).data.length }) ?_
        ((pbAfter_length_lt b bs).trans_le (Nat.le_of_lt_succ hfuel))
      rw [ByteCoder.rest, ← List.drop_drop, ← ByteCoder.rest, h]
      rfl

end

/-- R228: packets of an encoder take at most twice their data. -/
theorem pbBytes_length_le {ps : List PbPacket} (h : ∀ q ∈ ps, q.emitted = true) :
    (pbBytes ps).length ≤ 2 * (pbData ps).length := by
  induction ps with
  | nil => exact le_rfl
  | cons q ps ih =>
    obtain ⟨hq, hps⟩ := List.forall_mem_cons.1 h
    have hhead := PbPacket.bytes_length_le hq
    have htail := ih hps
    rw [pbBytes_cons, pbData_cons, List.length_append, List.length_append]
    omega

/-- Legal packets that stand for nothing are none. -/
theorem eq_nil_of_pbData {ps : List PbPacket} (hlegal : ∀ q ∈ ps, q.legal = true) (h : pbData ps = []) : ps = [] := by
  cases ps with
  | nil => rfl
  | cons q ps =>
    have hpos := PbPacket.data_length_pos (hlegal q (List.mem_cons_self ..))
    rw [pbData_cons] at h
    rw [(List.append_eq_nil_iff.1 h).1] at hpos
    cases hpos

/-- Settles O33: the packets are the encoder's own (`pbPackets`): greedy (`pbPackets_greedy`), emitted where they fit
(`runLoop_pbEncTurn`), and legal, so that `PB_DEC` returns their data (`exec_pbDec_packets`). -/
theorem pbEncEmitsGreedyPackets : Obligations.PbEncEmitsGreedyPackets := by
  intro s input hs
  have hdata := pbData_pbPackets input
  have hemitted := pbPackets_emitted input
  have hbytes := pbBytes_length_le hemitted
  have hlegal := pbPackets_legal input
  obtain ⟨d, hrun⟩ := runLoop_pbEncTurn (p := s.params) (c := ByteCoder.fresh input) input rfl (Nat.lt_succ_self _)
  rw [emitAll_eq _ _ _ (Nat.zero_le _)] at hrun
  rw [hdata] at hbytes
  refine ⟨pbPackets input, hdata, hbytes, fun hcap => ?_, fun hcap => ?_, fun q hq => ?_, fun pre bs post hps => ?_,
    fun pre n b post hps => pbPackets_greedy input hps, fun u hu hcap => ?_⟩
  · rw [if_pos (by simpa [ByteCoder.fresh] using hcap)] at hrun
    exact operation_loop_done hs (run := fun p => pbEncRun p input) hrun
  · rw [if_neg (by simpa [ByteCoder.fresh] using hcap)] at hrun
    exact operation_loop_raised hs (run := fun p => pbEncRun p input) rfl hrun
  · exact ⟨hemitted q hq, PbPacket.header_of_emitted (hemitted q hq)⟩
  · obtain ⟨hinside, hend⟩ := pbPackets_greedy input hps
    rw [hps] at hlegal
    exact ⟨hinside, hend.imp_right (Or.imp_left (eq_nil_of_pbData fun q hq => hlegal q (by simp [hq])))⟩
  · have hdec := exec_pbDec_packets hu hlegal (by rwa [hdata]) []
    rwa [List.append_nil, hdata] at hdec

end Sys2Proof.Machine
end

section
/-! O38, O39 and O42. The Ascii85 encoder emits the characters of its tuples in lines (`A85Enc.putChars_eq`), so a session with
some bytes pending stands for the stream it would return (`A85Enc.stream`): a full tuple appends its characters to the output
(`A85Enc.byte_fourth`), and the end appends those of the partial tuple (`A85Enc.endOut_eq`). The digits of a word are the base-85
digits of its value (`value85_digits85`). -/

namespace Sys2Proof.Machine

/-! ## Digits -/

/-- R253, R258: the digits of a word are those its value is made of. -/
theorem value85_digits85 (w : Nat) : value85 (digits85 w) = w := by
  simp only [value85, digits85, List.foldl_cons, List.foldl_nil]
  omega

/-- R253: no digit is above 84. -/
theorem digits85_le {w : Nat} (h : w < 2 ^ 32) : ∀ d ∈ digits85 w, d ≤ 84 := by
  simp only [digits85, List.forall_mem_cons, List.not_mem_nil, false_implies, implies_true, and_true]
  omega

/-- R91: the code of a digit's character. -/
theorem char85_toNat {d : Nat} (h : d ≤ 84) : (char85 d).toNat = 33 + d := by
  rw [char85, BitVec.toNat_ofNat]
  omega

/-- Settles O42: the digits have the value of the word (`value85_digits85`) and are at most 84 (`digits85_le`), which puts their
characters in the range (`char85_toNat`). -/
theorem digitsAreBase85 : Obligations.DigitsAreBase85 := by
  intro w hw
  refine ⟨rfl, value85_digits85 w, digits85_le hw, by omega, fun ch hch => ?_⟩
  obtain ⟨d, hd, rfl⟩ := List.mem_map.1 hch
  have hle := digits85_le hw d hd
  rw [char85_toNat hle]
  exact ⟨Nat.le_add_right 33 d, Nat.add_le_add_left hle 33⟩

/-! ## Tuples -/

theorem toList_four (v : Vector Byte 4) : v.toList = [v[0], v[1], v[2], v[3]] := by
  refine List.ext_getElem (by simp) fun i hi _ => ?_
  rw [Vector.length_toList] at hi
  interval_cases i <;> simp

/-- R53: the word of four bytes is their big-endian value. -/
theorem wordOf_toNat (v : Vector Byte 4) : (wordOf v).toNat = beValue v.toList := by
  have happend (n : Nat) (x : BitVec n) (b : Byte) : (x ++ b).toNat = x.toNat * 256 + b.toNat := by
    rw [BitVec.toNat_append, ← Nat.shiftLeft_add_eq_or_of_lt b.isLt, Nat.shiftLeft_eq]
  rw [toList_four, wordOf]
  simp only [happend, beValue, List.foldl_cons, List.foldl_nil, Nat.zero_mul, Nat.zero_add]

/-- R251, R252: the characters of a full tuple, before those of the rest. -/
theorem a85Chars_tuple (a b c d : Byte) (rest : List Byte) :
    a85Chars (a :: b :: c :: d :: rest) = tupleChars (beValue [a, b, c, d]) ++ a85Chars rest := rfl

/-- R254: the characters of a partial tuple. -/
theorem a85Chars_partial {last : List Byte} (hne : last ≠ []) (hlt : last.length < 4) :
    a85Chars last =
      ((digits85 (beValue (last ++ List.replicate (4 - last.length) 0))).take (last.length + 1)).map char85 := by
  match last, hne, hlt with
  | [_], _, _ => rfl
  | [_, _], _, _ => rfl
  | [_, _, _], _, _ => rfl

/-! ## Lines -/

theorem wrapped_append (col : Nat) (xs ys : List Byte) :
    wrapped col (xs ++ ys) = wrapped col xs ++ wrapped (wrappedCol col xs) ys := by
  induction xs generalizing col with
  | nil => rfl
  | cons x xs ih =>
    simp only [List.cons_append, wrapped, wrappedCol]
    split <;> simp only [ih, List.cons_append]

theorem wrappedCol_append (col : Nat) (xs ys : List Byte) :
    wrappedCol col (xs ++ ys) = wrappedCol (wrappedCol col xs) ys := by
  induction xs generalizing col with
  | nil => rfl
  | cons x xs ih =>
    simp only [List.cons_append, wrappedCol]
    split <;> exact ih _

/-! ## The encoder's context -/

namespace A85Enc

/-- The bytes of the tuple not yet full. -/
def pendingBytes (c : A85Enc) : List Byte := c.pending.toList.take c.pendingCount

/-- What the session returns if it is given these bytes and then ends. -/
def stream (c : A85Enc) (bytes : List Byte) : List Byte :=
  c.out ++ wrapped c.lineCol (a85Chars (c.pendingBytes ++ bytes)) ++ [0x7E, 0x3E]

variable {cap : Nat} {c : A85Enc} {b : Byte}

/-- R255: a character is emitted after the line break it needs. -/
theorem putChar_eq (x : Byte) :
    c.putChar cap x = (emitAll cap c.out (wrapped c.lineCol [x])).map
      fun out => { c with out := out, lineCol := wrappedCol c.lineCol [x] } := by
  have hemit (d : A85Enc) : (emit cap d.out x >>= fun out => pure { d with out := out, lineCol := d.lineCol + 1 }) =
      (emitAll cap d.out [x]).map fun out => { d with out := out, lineCol := d.lineCol + 1 } := by
    rw [emitAll]
    cases emit cap d.out x <;> rfl
  by_cases hcol : c.lineCol = 72
  · rw [putChar, if_pos (show c.lineCol = a85LineWidth from hcol)]
    simp only [wrapped, wrappedCol, if_pos hcol, emitAll]
    cases emit cap c.out 0x0A with
    | error e => rfl
    | ok out => exact hemit { c with out := out, lineCol := 0 }
  · rw [putChar, if_neg (show c.lineCol ≠ a85LineWidth from hcol)]
    simp only [wrapped, wrappedCol, if_neg hcol]
    exact hemit c

/-- R255: characters are emitted with the line breaks between them. -/
theorem putChars_eq (xs : List Byte) :
    c.putChars cap xs = (emitAll cap c.out (wrapped c.lineCol xs)).map
      fun out => { c with out := out, lineCol := wrappedCol c.lineCol xs } := by
  induction xs generalizing c with
  | nil => rfl
  | cons x xs ih =>
    rw [putChars, putChar_eq, ← List.singleton_append (l := xs), wrapped_append, wrappedCol_append, emitAll_append]
    cases emitAll cap c.out (wrapped c.lineCol [x]) with
    | error e => rfl
    | ok out => exact ih

/-- R62, R255: characters that fit are appended with the line breaks between them. -/
theorem putChars_eq_ite (hcap : c.out.length ≤ cap) (xs : List Byte) :
    c.putChars cap xs =
      if (c.out ++ wrapped c.lineCol xs).length ≤ cap then
        .ok { c with out := c.out ++ wrapped c.lineCol xs, lineCol := wrappedCol c.lineCol xs }
      else .error .allocationFailure := by
  rw [putChars_eq, emitAll_eq _ _ _ hcap, List.length_append]
  split <;> rfl

/-! ## The pending bytes -/

theorem pendingBytes_zero (hn : c.pendingCount = 0) : c.pendingBytes = [] := by rw [pendingBytes, hn, List.take_zero]

theorem pendingBytes_three (hn : c.pendingCount = 3) : c.pendingBytes = [c.pending[0], c.pending[1], c.pending[2]] := by
  rw [pendingBytes, hn, toList_four]
  rfl

theorem pendingBytes_length (hn : c.pendingCount < 4) : c.pendingBytes.length = c.pendingCount := by
  rw [pendingBytes, List.length_take, Vector.length_toList]
  omega

theorem pendingBytes_set (hn : c.pendingCount < 4) (col : Nat) (out : List Byte) :
    pendingBytes ⟨c.pending.setIfInBounds c.pendingCount b, c.pendingCount + 1, col, out⟩ = c.pendingBytes ++ [b] := by
  simp [pendingBytes, hn, List.take_add_one, List.take_set_of_le]

/-- R254: the padded tuple is the pending bytes with zeros after them. -/
theorem padded_toList (hn : c.pendingCount < 4) :
    c.padded.toList = c.pendingBytes ++ List.replicate (4 - c.pendingBytes.length) 0 := by
  refine List.ext_getElem (by simp [pendingBytes_length hn]; omega) fun i hi _ => ?_
  simp only [Vector.length_toList] at hi
  by_cases hlt : i < c.pendingCount
  · simp [padded, hlt, pendingBytes, hi]
  · simp [padded, List.getElem_append, pendingBytes_length hn, hlt]

/-! ## A byte and the end -/

/-- R251: the first three bytes of a tuple are kept. -/
theorem byte_pending (hn : c.pendingCount < 3) :
    c.byte cap b = .ok ⟨c.pending.setIfInBounds c.pendingCount b, c.pendingCount + 1, c.lineCol, c.out⟩ := by
  rw [byte]
  exact if_neg (by dsimp only; omega)

/-- R251, R252: the fourth byte of a tuple writes its characters. -/
theorem byte_fourth (hn : c.pendingCount = 3) (hcap : c.out.length ≤ cap) {chars : List Byte}
    (hchars : chars = a85Chars (c.pendingBytes ++ [b])) :
    c.byte cap b =
      if (c.out ++ wrapped c.lineCol chars).length ≤ cap then
        .ok ⟨#v[0, 0, 0, 0], 0, wrappedCol c.lineCol chars, c.out ++ wrapped c.lineCol chars⟩
      else .error .allocationFailure := by
  have hset := pendingBytes_set (b := b) (by omega : c.pendingCount < 4) c.lineCol c.out
  have htuple : tupleChars (wordOf (c.pending.setIfInBounds c.pendingCount b)).toNat = chars := by
    have hall : (c.pending.setIfInBounds c.pendingCount b).toList = c.pendingBytes ++ [b] := by
      rw [← hset, pendingBytes, hn]
      exact (List.take_of_length_le (by simp)).symm
    rw [wordOf_toNat, hall, hchars, pendingBytes_three hn]
    exact ((a85Chars_tuple _ _ _ b []).trans (List.append_nil _)).symm
  rw [byte]
  dsimp only
  rw [if_pos (by omega), htuple, putChars_eq_ite (by exact hcap)]
  by_cases hfit : (c.out ++ wrapped c.lineCol chars).length ≤ cap
  · rw [if_pos hfit, if_pos hfit]
  · rw [if_neg hfit, if_neg hfit]

/-- R254, R255, R256: the end writes the characters of the partial tuple and the end marker. -/
theorem endOut_eq (hn : c.pendingCount < 4) (hcap : c.out.length ≤ cap) :
    c.endOut cap = if (c.stream []).length ≤ cap then .ok (c.stream []) else .error .allocationFailure := by
  have hput : c.endOut cap = c.putChars cap (a85Chars c.pendingBytes) >>= fun d => emitAll cap d.out [0x7E, 0x3E] := by
    rw [endOut]
    split
    · next hpos =>
      have hlen := pendingBytes_length hn
      have hne : c.pendingBytes ≠ [] := List.ne_nil_of_length_pos (by omega)
      rw [a85Chars_partial hne (by omega), wordOf_toNat, padded_toList hn, hlen]
    · next hzero =>
      rw [pendingBytes_zero (Nat.eq_zero_of_not_pos hzero)]
      rfl
  have hend : c.endOut cap = emitAll cap c.out (wrapped c.lineCol (a85Chars c.pendingBytes) ++ [0x7E, 0x3E]) := by
    rw [hput, putChars_eq, emitAll_append]
    cases emitAll cap c.out (wrapped c.lineCol (a85Chars c.pendingBytes)) <;> rfl
  rw [hend, emitAll_eq _ _ _ hcap, ← List.length_append, ← List.append_assoc, stream, List.append_nil]

end A85Enc

/-! ## The operations of the encoder -/

theorem A85Enc.continued_eq {session : Option A85Enc} {c : A85Enc}
    (h : session = some c ∨ session = none ∧ c = ⟨#v[0, 0, 0, 0], 0, 0, []⟩) : A85Enc.continued session = c := by
  obtain rfl | ⟨rfl, rfl⟩ := h <;> rfl

section

variable {s : State} (hs : s.ready = true)

include hs

/-- R285: an error of the Ascii85 encoder closes its session. -/
theorem State.popDraw_raise_a85Enc :
    s.popDraw.raise .a85Enc .allocationFailure =
      { s.answered .a85Enc .allocationFailure .nothing with a85Enc := none } := by
  simp [State.raise, State.close, State.popDraw, State.finish, State.answered, ErrorKind.status, State.active_of_ready hs]

/-- R251: a byte that the session takes. -/
theorem exec_a85EncByte {c : A85Enc} {b : Byte} (hbyte : (A85Enc.continued s.a85Enc).byte s.params.outCapacity b = .ok c) :
    exec (.a85EncByte b) s = .next { s.answered .a85Enc .ok .nothing with a85Enc := some c } := by
  rw [exec, execA85EncByte, operation_ready hs, State.popDraw_a85Enc, State.popDraw_params, hbyte, ok_bind]
  refine congrArg Host.Outcome.next ?_
  by_cases hopen : s.a85Enc = none
  · rw [if_pos hopen]
    simp [State.openSession, State.finish, State.answered, State.popDraw, State.active_of_ready hs]
  · rw [if_neg hopen]
    simp [State.finish, State.answered, State.popDraw, State.active_of_ready hs]

/-- R62: a byte whose tuple does not fit. -/
theorem exec_a85EncByte_full {b : Byte}
    (hbyte : (A85Enc.continued s.a85Enc).byte s.params.outCapacity b = .error .allocationFailure) :
    exec (.a85EncByte b) s = .next { s.answered .a85Enc .allocationFailure .nothing with a85Enc := none } := by
  rw [exec, execA85EncByte, operation_ready hs, State.popDraw_a85Enc, State.popDraw_params, hbyte, error_bind,
    State.complete_error, State.popDraw_raise_a85Enc hs]

/-- R254: an end that fits. -/
theorem exec_a85EncEnd {out : List Byte} (hend : (A85Enc.continued s.a85Enc).endOut s.params.outCapacity = .ok out) :
    exec .a85EncEnd s = .next { s.answered .a85Enc .ok (.bytes out) with a85Enc := none } := by
  rw [exec, execA85EncEnd, operation_ready hs, State.popDraw_a85Enc, State.popDraw_params, hend]
  simp [State.close, State.finish, State.answered, State.popDraw, State.active_of_ready hs]

/-- R62: an end that does not fit. -/
theorem exec_a85EncEnd_full (hend : (A85Enc.continued s.a85Enc).endOut s.params.outCapacity = .error .allocationFailure) :
    exec .a85EncEnd s = .next { s.answered .a85Enc .allocationFailure .nothing with a85Enc := none } := by
  rw [exec, execA85EncEnd, operation_ready hs, State.popDraw_a85Enc, State.popDraw_params, hend, error_bind,
    State.complete_error, State.popDraw_raise_a85Enc hs]

end

/-- Settles O38: a byte is kept (`A85Enc.byte_pending`) or writes its tuple (`A85Enc.byte_fourth`), which fits or does not. -/
theorem a85EncByteWritesFullTuples : Obligations.A85EncByteWritesFullTuples := by
  intro s c b hs hsession hwf
  obtain ⟨-, -, hcap, -⟩ := A85Enc.wf_iff.1 hwf
  obtain rfl := A85Enc.continued_eq hsession
  refine ⟨fun hn => exec_a85EncByte hs (A85Enc.byte_pending hn), fun hn chars hchars => ?_⟩
  have hbyte := A85Enc.byte_fourth hn hcap (b := b) (chars := chars) (by rw [hchars, A85Enc.pendingBytes_three hn]; rfl)
  refine ⟨fun hfit => exec_a85EncByte hs ?_, fun hfull => exec_a85EncByte_full hs ?_⟩
  · rw [hbyte, if_pos hfit]
  · rw [hbyte, if_neg (Nat.not_le.2 hfull)]

/-- Settles O39: the output of the end is the stream of the session given no more bytes (`A85Enc.endOut_eq`), which fits or does
not. -/
theorem a85EncEndWritesThePartialTuple : Obligations.A85EncEndWritesThePartialTuple := by
  intro s c hs hsession hwf out hout
  obtain ⟨hn, -, hcap, -⟩ := A85Enc.wf_iff.1 hwf
  obtain rfl := A85Enc.continued_eq hsession
  have hend := A85Enc.endOut_eq hn hcap
  rw [A85Enc.stream, List.append_nil, A85Enc.pendingBytes, ← hout] at hend
  refine ⟨fun hfit => exec_a85EncEnd hs ?_, fun hfull => exec_a85EncEnd_full hs ?_⟩
  · rw [hend, if_pos hfit]
  · rw [hend, if_neg (Nat.not_le.2 hfull)]

end Sys2Proof.Machine
end

section
/-! O40. A session takes its bytes one by one without changing the stream it stands for (`A85Enc.byte_stream`), so it returns that
stream (`execAll_a85Enc`), whose lines hold no line feed of their own and are full (`fullLines_wrapped`). -/

namespace Sys2Proof.Machine

/-! ## A session -/

/-- R251: a byte that the session takes belongs to its stream. -/
theorem A85Enc.byte_stream {cap : Nat} {c : A85Enc} {b : Byte} {bytes : List Byte} (hn : c.pendingCount < 4)
    (hcap : c.out.length ≤ cap) (hfit : (c.stream (b :: bytes)).length ≤ cap) :
    ∃ c', c.byte cap b = .ok c' ∧ c'.stream bytes = c.stream (b :: bytes) := by
  obtain hlt | hthree : c.pendingCount < 3 ∨ c.pendingCount = 3 := by omega
  · refine ⟨_, byte_pending hlt, ?_⟩
    rw [stream, stream, pendingBytes_set hn, ← List.append_cons]
  · have hchars : a85Chars (c.pendingBytes ++ b :: bytes) = a85Chars (c.pendingBytes ++ [b]) ++ a85Chars bytes := by
      rw [pendingBytes_three hthree]
      exact (a85Chars_tuple ..).trans (congrArg (· ++ _) ((a85Chars_tuple ..).trans (List.append_nil _)).symm)
    have hstream : c.stream (b :: bytes) = stream ⟨#v[0, 0, 0, 0], 0, wrappedCol c.lineCol (a85Chars (c.pendingBytes ++ [b])),
        c.out ++ wrapped c.lineCol (a85Chars (c.pendingBytes ++ [b]))⟩ bytes := by
      rw [stream, hchars, wrapped_append, ← List.append_assoc c.out]
      rfl
    rw [hstream, stream, List.append_assoc, List.length_append] at hfit
    exact ⟨_, by rw [byte_fourth hthree hcap rfl, if_pos (by dsimp only at hfit; omega)], hstream.symm⟩

/-- R73, R251, R254: bytes and an end return the stream of the session. -/
theorem execAll_a85Enc {s : State} {c : A85Enc} {bytes : List Byte} (hs : s.quiet = true)
    (hsession : A85Enc.continued s.a85Enc = c) (hwf : c.wf s.params = true)
    (hfit : (c.stream bytes).length ≤ s.params.outCapacity) :
    ∃ t, execAll (a85Enc bytes) s = .next t ∧ t.status.a85Enc = some .ok ∧ t.result = .bytes (c.stream bytes) ∧
      t.a85Enc = none := by
  obtain ⟨hn, -, hcap, -⟩ := A85Enc.wf_iff.1 hwf
  induction bytes generalizing s c with
  | nil =>
    have hend : (A85Enc.continued s.a85Enc).endOut s.params.outCapacity = .ok (c.stream []) := by
      rw [hsession, A85Enc.endOut_eq hn hcap, if_pos hfit]
    exact ⟨_, execAll_cons (exec_a85EncEnd (State.ready_of_quiet hs) hend), rfl, rfl, rfl⟩
  | cons b bytes ih =>
    obtain ⟨c', hbyte, hstream⟩ := A85Enc.byte_stream hn hcap hfit
    have hwf' := A85Enc.byte_wf hwf hbyte
    obtain ⟨hn', -, hcap', -⟩ := A85Enc.wf_iff.1 hwf'
    rw [← hstream] at hfit ⊢
    rw [← hsession] at hbyte
    have hexec := exec_a85EncByte (State.ready_of_quiet hs) hbyte
    obtain ⟨t, ht, hend⟩ := ih (s := { s.answered .a85Enc .ok .nothing with a85Enc := some c' })
      (State.quiet_answered hs .a85Enc .ok .nothing) rfl hwf' hfit hn' hcap'
    exact ⟨t, (execAll_cons hexec).trans ht, hend⟩

/-- R91: a session from its first byte returns the stream of its bytes. -/
theorem execAll_a85Enc_fresh {s : State} {bytes : List Byte} (hs : s.quiet = true) (hnone : s.a85Enc = none)
    (hfit : (a85Stream bytes).length ≤ s.params.outCapacity) :
    ∃ t, execAll (a85Enc bytes) s = .next t ∧ t.status.a85Enc = some .ok ∧ t.result = .bytes (a85Stream bytes) ∧
      t.a85Enc = none := by
  have hwf : A85Enc.fresh.wf s.params = true :=
    A85Enc.wf_iff.2 ⟨Nat.zero_lt_succ 3, Nat.zero_le _, Nat.zero_le _, fun k => .inr (zero_pending k)⟩
  exact execAll_a85Enc hs (by rw [hnone]; rfl) hwf hfit

/-! ## Characters -/

/-- R91: a data character, `z` or the character of a digit. -/
def IsDataChar (ch : Byte) : Prop := ch = 0x7A ∨ ∃ d ≤ 84, ch = char85 d

theorem IsDataChar.ne_lineFeed {ch : Byte} (h : IsDataChar ch) : ch ≠ 0x0A := by
  obtain rfl | ⟨d, hd, rfl⟩ := h
  · decide
  · intro hlf
    have hcode := char85_toNat hd
    rw [hlf] at hcode
    exact absurd hcode (by simp; omega)

theorem isDataChar_digits {w : Nat} (hw : w < 2 ^ 32) {ds : List Nat} (hds : ds ⊆ digits85 w) {ch : Byte}
    (hch : ch ∈ ds.map char85) : IsDataChar ch := by
  obtain ⟨d, hd, rfl⟩ := List.mem_map.1 hch
  exact .inr ⟨d, digits85_le hw d (hds hd), rfl⟩

theorem length_lt_four {last : List Byte} (h : ∀ a b c d rest, last = a :: b :: c :: d :: rest → False) : last.length < 4 := by
  match last with
  | [] | [_] | [_, _] | [_, _, _] => simp
  | a :: b :: c :: d :: rest => exact (h a b c d rest rfl).elim

/-- R91: the characters of tuples are data characters. -/
theorem isDataChar_a85Chars (bytes : List Byte) : ∀ ch ∈ a85Chars bytes, IsDataChar ch := by
  induction bytes using a85Chars.induct with
  | case1 a b c d rest ih =>
    rw [a85Chars_tuple, tupleChars]
    refine List.forall_mem_append.2 ⟨fun ch hch => ?_, ih⟩
    split at hch
    · exact .inl (List.mem_singleton.1 hch)
    · exact isDataChar_digits (beValue_lt rfl) (List.Subset.refl _) hch
  | case2 => exact fun ch hch => by cases hch
  | case3 last hlong hne =>
    have hlt := length_lt_four hlong
    rw [a85Chars_partial hne hlt]
    exact fun ch => isDataChar_digits (beValue_lt (by simp; omega)) (List.take_subset ..)

/-! ## Lines -/

/-- R255: lines of 72 bytes each and a last one of at most 74, the end marker with it, of which the first is continued after
`col` bytes. -/
inductive FullLines : Nat → List (List Byte) → Prop
  | last {col : Nat} {line : List Byte} (h : col + line.length ≤ 74) : FullLines col [line]
  | full {col : Nat} {line : List Byte} {lines : List (List Byte)} (h : col + line.length = 72) (hlines : FullLines 0 lines) :
    FullLines col (line :: lines)

theorem FullLines.cons_char {col : Nat} {lines : List (List Byte)} (x : Byte) (h : FullLines (col + 1) lines) :
    FullLines col (lines.modifyHead (x :: ·)) := by
  cases h with
  | last h => exact .last (by rw [List.length_cons]; omega)
  | full h hlines => exact .full (by rw [List.length_cons]; omega) hlines

theorem FullLines.lengths {lines : List (List Byte)} (h : FullLines 0 lines) :
    (∀ line ∈ lines.dropLast, line.length = 72) ∧ ∀ line ∈ lines.getLast?, line.length ≤ 74 := by
  induction lines with
  | nil => cases h
  | cons line lines ih =>
    cases h with
    | last h => simpa using h
    | full h hlines =>
      obtain ⟨hfull, hlast⟩ := ih hlines
      cases lines with
      | nil => cases hlines
      | cons line' lines =>
        rw [List.dropLast_cons_cons, List.getLast?_cons_cons]
        exact ⟨List.forall_mem_cons.2 ⟨by omega, hfull⟩, hlast⟩

/-- R255, R256: wrapped data characters and the end marker stand in full lines. -/
theorem fullLines_wrapped {col : Nat} {xs : List Byte} (hcol : col ≤ 72) (hdata : ∀ ch ∈ xs, IsDataChar ch) :
    FullLines col ((wrapped col xs ++ [0x7E, 0x3E]).splitOn 0x0A) := by
  induction xs generalizing col with
  | nil => exact .last (line := [0x7E, 0x3E]) (by simp; omega)
  | cons x xs ih =>
    obtain ⟨hx, hdata⟩ := List.forall_mem_cons.1 hdata
    have hne : (x == 0x0A) = false := beq_eq_false_iff_ne.2 hx.ne_lineFeed
    rw [wrapped]
    split
    · next hfull =>
      rw [List.cons_append, List.splitOn_cons_eq_if_modifyHead, if_pos (by rfl), List.cons_append,
        List.splitOn_cons_eq_if_modifyHead, hne]
      exact .full hfull (.cons_char x (ih (by decide) hdata))
    · next hroom =>
      rw [List.cons_append, List.splitOn_cons_eq_if_modifyHead, hne]
      exact .cons_char x (ih (by omega) hdata)

/-- Settles O40: the session returns its stream (`execAll_a85Enc_fresh`), whose lines are full (`fullLines_wrapped`). -/
theorem a85StreamIsTheWrappedTuples : Obligations.A85StreamIsTheWrappedTuples := by
  intro s bytes hs hnone hfit
  exact ⟨execAll_a85Enc_fresh hs hnone hfit, (fullLines_wrapped (Nat.zero_le _) (isDataChar_a85Chars bytes)).lengths⟩

end Sys2Proof.Machine
end

section
/-! O41. The decoder reads wrapped data characters as it reads them without the line breaks (`A85Dec.Reads.wrapped`). It reads those
of a full tuple as its four bytes (`A85Dec.reads_tuple`), and the padded digits of a partial tuple give its bytes back at the end
marker (`wordBytes_padded_take`), so it returns the bytes of the stream (`A85Dec.reads_chars`). -/

namespace Sys2Proof.Machine

/-! ## What the decoder takes -/

/-- R258: the decoder takes the character, which leaves these digits waiting and this output. -/
def A85Dec.Takes (p : Params) (ch : Byte) (group : List Nat) (out : List Byte) (group' : List Nat) (out' : List Byte) : Prop :=
  ∀ input i follow, A85Dec.accept p ⟨input, i, group, out⟩ (decodeA85 ch follow) = .more ⟨input, i, group', out'⟩

/-- R258: the decoder takes the characters of a text one by one. -/
inductive A85Dec.Reads (p : Params) : List Byte → List Nat → List Byte → List Nat → List Byte → Prop
  | nil {group : List Nat} {out : List Byte} : Reads p [] group out group out
  | cons {ch : Byte} {text : List Byte} {group₀ group₁ group₂ : List Nat} {out₀ out₁ out₂ : List Byte}
    (htakes : Takes p ch group₀ out₀ group₁ out₁) (hreads : Reads p text group₁ out₁ group₂ out₂) :
    Reads p (ch :: text) group₀ out₀ group₂ out₂

namespace A85Dec

variable {p : Params} {group group₁ group₂ : List Nat} {out out₁ out₂ text : List Byte}

/-- R259: a line break is skipped. -/
theorem takes_lineFeed : Takes p 0x0A group out group out := fun _ _ _ => rfl

/-- R258: `z` between two tuples. -/
theorem takes_zero (hcap : out.length + 4 ≤ p.outCapacity) : Takes p 0x7A [] out [] (out ++ [0, 0, 0, 0]) := by
  intro input i follow
  exact (zero_empty (c := ⟨input, i, [], out⟩) (by dsimp only; omega) rfl).trans (if_pos hcap)

/-- R91: the character of a digit is read as it. -/
theorem decodeA85_char85 {d : Nat} (hd : d ≤ 84) (follow : Option Byte) : decodeA85 (char85 d) follow = .digit d := by
  have hcode := char85_toNat hd
  have hne (k : Byte) (hk : k.toNat < 33 ∨ 117 < k.toNat) : char85 d ≠ k := fun h => by rw [h] at hcode; omega
  rw [decodeA85, if_neg (hne _ (by decide)), if_neg (by simp [hne]), if_neg (hne _ (by decide)), if_neg (hne _ (by decide)),
    if_neg (by omega), hcode, Nat.add_sub_cancel_left]

/-- R258: one of the first four digits of a tuple waits. -/
theorem takes_digit {d : Nat} (hd : d ≤ 84) (hlen : group.length < 4) : Takes p (char85 d) group out (group ++ [d]) out := by
  intro input i follow
  rw [decodeA85_char85 hd, accept, digit, if_neg (by simp; omega)]

/-- R258: the fifth digit of a tuple writes its bytes. -/
theorem takes_fifth {d : Nat} (hd : d ≤ 84) (hlen : group.length = 4) (hvalue : value85 (group ++ [d]) < 2 ^ 32)
    (hcap : out.length + 4 ≤ p.outCapacity) :
    Takes p (char85 d) group out [] (out ++ wordBytes (value85 (group ++ [d]))) := by
  intro input i follow
  rw [decodeA85_char85 hd, accept, digit_fifth (by dsimp only; omega) hlen, if_neg (Nat.not_le.2 hvalue), if_pos hcap]

/-! ## Texts -/

theorem Reads.singleton {ch : Byte} (h : Takes p ch group out group₁ out₁) : Reads p [ch] group out group₁ out₁ := .cons h .nil

theorem Reads.append {text' : List Byte} (h : Reads p text group out group₁ out₁) (h' : Reads p text' group₁ out₁ group₂ out₂) :
    Reads p (text ++ text') group out group₂ out₂ := by
  induction h with
  | nil => exact h'
  | cons htakes _ ih => exact .cons htakes (ih h')

/-- R259: line breaks between the characters change nothing. -/
theorem Reads.wrapped {col : Nat} (h : Reads p text group out group₁ out₁) :
    Reads p (wrapped col text) group out group₁ out₁ := by
  induction h generalizing col with
  | nil => exact .nil
  | cons htakes _ ih =>
    rw [Machine.wrapped]
    split
    · exact .cons takes_lineFeed (.cons htakes ih)
    · exact .cons htakes ih

/-- R258: the turns of the decoder at a text that it reads. -/
theorem Reads.runLoop (h : Reads p text group out group₁ out₁) {input tail : List Byte} {i : Nat}
    (hrest : input.drop i = text ++ tail) (fuel : Nat) :
    runLoop (advance p) (fuel + text.length) ⟨input, i, group, out⟩ =
      runLoop (advance p) fuel ⟨input, i + text.length, group₁, out₁⟩ := by
  induction h generalizing i with
  | nil => rfl
  | @cons ch text _ _ _ _ _ _ htakes _ ih =>
    have hch : input[i]? = some ch := by rw [← List.head?_drop, hrest]; rfl
    have hnext : input.drop (i + 1) = text ++ tail := by rw [← List.drop_drop, hrest]; rfl
    have hturn := htakes input (i + 1) input[i + 1]?
    have hmore := runLoop_more (turn := advance p) (fuel := fuel + text.length) (c := ⟨input, i, _, _⟩) (by
      simp only [advance, turn, hch, Turn.take_token]
      exact hturn)
    rw [List.length_cons, ← Nat.add_assoc, hmore, ih hnext, Nat.add_right_comm i, Nat.add_assoc i]

/-- R261: the decoder returns at the end marker after a text that it reads. -/
theorem Reads.run_done (h : Reads p text [] [] group out) {result : List Byte}
    (hfinish : ∀ input i, finish p ⟨input, i, group, out⟩ = .done ⟨input, i, group, out⟩ .ok (.bytes result)) :
    ∃ c, run p (text ++ [0x7E, 0x3E]) = .done c .ok (.bytes result) := by
  have hloop := h.runLoop (input := text ++ [0x7E, 0x3E]) (tail := [0x7E, 0x3E]) (i := 0) rfl 3
  rw [Nat.zero_add] at hloop
  have hmark : (text ++ [0x7E, 0x3E])[text.length]? = some 0x7E := by simp
  have hfollow : (text ++ [0x7E, 0x3E])[text.length + 1]? = some 0x3E := by simp
  have hturn : advance p ⟨text ++ [0x7E, 0x3E], text.length, group, out⟩ =
      finish p ⟨text ++ [0x7E, 0x3E], text.length + 1, group, out⟩ := by
    simp only [advance, turn, hmark, hfollow, Turn.take_token]
    rfl
  have hfuel : (text ++ [0x7E, 0x3E]).length + 1 = 3 + text.length := by simp; omega
  have hrun : run p (text ++ [0x7E, 0x3E]) = _ := (congrArg (Machine.runLoop (advance p) · _) hfuel).trans hloop
  exact ⟨_, hrun.trans (runLoop_done (hturn.trans (hfinish _ _)))⟩

/-! ## Tuples -/

/-- R258: fewer than five digits wait. -/
theorem reads_digits {ds : List Nat} (hds : ∀ d ∈ ds, d ≤ 84) (hlen : group.length + ds.length < 5) :
    Reads p (ds.map char85) group out (group ++ ds) out := by
  induction ds generalizing group with
  | nil => rw [List.append_nil]; exact .nil
  | cons d ds ih =>
    obtain ⟨hd, hds⟩ := List.forall_mem_cons.1 hds
    rw [List.length_cons] at hlen
    rw [List.append_cons]
    exact .cons (takes_digit hd (by omega)) (ih hds (by rw [List.length_append, List.length_singleton]; omega))

/-- R258: a full tuple gives its word back. -/
theorem reads_tuple {w : Nat} (hw : w < 2 ^ 32) (hcap : out.length + 4 ≤ p.outCapacity) :
    Reads p (tupleChars w) [] out [] (out ++ wordBytes w) := by
  rw [tupleChars]
  split
  · next hzero => rw [hzero]; exact .singleton (takes_zero hcap)
  · have hds := digits85_le hw
    have hvalue := value85_digits85 w
    obtain ⟨front, d, hsplit, hfront⟩ : ∃ front d, digits85 w = front ++ [d] ∧ front.length = 4 := ⟨[_, _, _, _], _, rfl, rfl⟩
    rw [hsplit] at hds hvalue
    obtain ⟨hds, hd⟩ := List.forall_mem_append.1 hds
    have hfifth := takes_fifth (hd d (List.mem_singleton_self d)) hfront (by rwa [hvalue]) hcap
    rw [hvalue] at hfifth
    rw [hsplit, List.map_append]
    exact (reads_digits hds (by rw [hfront]; decide)).append (.singleton hfifth)

end A85Dec

/-- R53: zeros after some bytes. -/
theorem beValue_append_zeros (bytes : List Byte) (n : Nat) :
    beValue (bytes ++ List.replicate n 0) = beValue bytes * 256 ^ n := by
  induction n with
  | zero => simp
  | succ n ih =>
    rw [List.replicate_succ', ← List.append_assoc, Nat.pow_succ, ← Nat.mul_assoc, ← ih]
    simp [beValue]

/-- R262: the first digits of a word, padded with the digit 84, have a value from the word up. -/
theorem value85_padded (w : Nat) {k : Nat} (hmin : 1 ≤ k) (hmax : k < 4) :
    w ≤ value85 ((digits85 w).take (k + 1) ++ List.replicate (4 - k) 84) ∧
      value85 ((digits85 w).take (k + 1) ++ List.replicate (4 - k) 84) < w + 256 ^ (4 - k) := by
  interval_cases k <;> simp [value85, digits85, List.replicate] <;> omega

/-- R258: the first bytes of a word are those of the part of it that they hold. -/
theorem wordBytes_take_congr {v w k : Nat} (hmin : 1 ≤ k) (hmax : k < 4) (h : v / 256 ^ (4 - k) = w / 256 ^ (4 - k)) :
    (wordBytes v).take k = (wordBytes w).take k := by
  have hbyte {a b : Nat} (hab : a % 256 = b % 256) : BitVec.ofNat 8 a = BitVec.ofNat 8 b := BitVec.eq_of_toNat_eq hab
  interval_cases k <;> simp only [wordBytes, List.take_succ_cons, List.take_zero, List.cons.injEq, and_true]
  · exact hbyte (by omega)
  · exact ⟨hbyte (by omega), hbyte (by omega)⟩
  · exact ⟨hbyte (by omega), hbyte (by omega), hbyte (by omega)⟩

/-- R262, R263: the digits of a partial tuple, padded with the digit 84, give its bytes back. -/
theorem wordBytes_padded_take {last : List Byte} (hmin : 1 ≤ last.length) (hmax : last.length < 4) {w v : Nat}
    (hw : beValue (last ++ List.replicate (4 - last.length) 0) = w)
    (hv : value85 ((digits85 w).take (last.length + 1) ++ List.replicate (4 - last.length) 84) = v) :
    v < 2 ^ 32 ∧ (wordBytes v).take last.length = last := by
  have hlen : (last ++ List.replicate (4 - last.length) (0 : Byte)).length = 4 := by simp; omega
  have hlt := beValue_lt hlen
  have hbytes := wordBytes_beValue hlen
  have hzeros := beValue_append_zeros last (4 - last.length)
  obtain ⟨hlo, hhi⟩ := value85_padded w hmin hmax
  rw [hw] at hlt hbytes hzeros
  rw [hv] at hlo hhi
  have hpos : 0 < 256 ^ (4 - last.length) := Nat.pow_pos (by decide)
  have hdiv : v / 256 ^ (4 - last.length) = w / 256 ^ (4 - last.length) := by
    rw [hzeros, Nat.mul_div_cancel _ hpos]
    exact Nat.div_eq_of_lt_le (hzeros ▸ hlo) (by rw [Nat.succ_mul, ← hzeros]; exact hhi)
  refine ⟨?_, ?_⟩
  · generalize last.length = k at hmin hmax hzeros hhi
    interval_cases k <;> omega
  · rw [wordBytes_take_congr hmin hmax hdiv, hbytes, List.take_left' rfl]

namespace A85Dec

variable {p : Params} {out : List Byte}

/-- R262: the end marker after the digits of a partial tuple. -/
theorem finish_padded {group : List Nat} {k v : Nat} (hmin : 1 ≤ k) (hmax : k < 4) (hlen : group.length = k + 1)
    (hv : value85 (group ++ List.replicate (4 - k) 84) = v) (hword : v < 2 ^ 32) (hcap : out.length + k ≤ p.outCapacity)
    (input : List Byte) (i : Nat) :
    finish p ⟨input, i, group, out⟩ = .done ⟨input, i, group, out⟩ .ok (.bytes (out ++ (wordBytes v).take k)) := by
  have hpad : 5 - group.length = 4 - k := by omega
  have hk : group.length - 1 = k := by omega
  have hshort := finish_short (p := p) (c := ⟨input, i, group, out⟩) (w := v) (by dsimp only; omega) (by dsimp only; omega)
    (by dsimp only; omega) (by rw [hpad]; exact hv)
  rwa [if_neg (Nat.not_le.2 hword), hk, if_pos hcap] at hshort

/-- R263: the decoder reads the characters of some bytes and then returns them at the end marker. -/
theorem reads_chars {bytes : List Byte} (hcap : out.length + bytes.length ≤ p.outCapacity) :
    ∃ group out', Reads p (a85Chars bytes) [] out group out' ∧ ∀ input i,
      finish p ⟨input, i, group, out'⟩ = .done ⟨input, i, group, out'⟩ .ok (.bytes (out ++ bytes)) := by
  induction bytes using a85Chars.induct generalizing out with
  | case1 a b c d rest ih =>
    simp only [List.length_cons] at hcap
    have htuple := reads_tuple (p := p) (out := out) (beValue_lt (bytes := [a, b, c, d]) rfl) (by omega)
    rw [wordBytes_beValue rfl] at htuple
    obtain ⟨group, out', hreads, hfinish⟩ := ih (out := out ++ [a, b, c, d]) (by simp; omega)
    refine ⟨group, out', ?_, fun input i => ?_⟩
    · rw [a85Chars_tuple]
      exact htuple.append hreads
    · rw [hfinish, List.append_assoc]
      rfl
  | case2 => exact ⟨[], out, .nil, fun _ _ => by rw [finish_empty rfl, List.append_nil]⟩
  | case3 last hlong hne =>
    have hmax := length_lt_four hlong
    have hmin : 1 ≤ last.length := List.length_pos_iff.2 hne
    have hdigits := digits85_le (beValue_lt (bytes := last ++ List.replicate (4 - last.length) 0) (by simp; omega))
    obtain ⟨hword, htake⟩ := wordBytes_padded_take hmin hmax rfl rfl
    rw [a85Chars_partial hne hmax]
    generalize hds : digits85 _ = ds at hdigits hword htake ⊢
    generalize hv : value85 _ = v at hword htake
    have hlen : (ds.take (last.length + 1)).length = last.length + 1 := by
      rw [List.length_take, ← hds]
      exact Nat.min_eq_left (by simp [digits85]; omega)
    refine ⟨_, out, reads_digits (fun d hd => hdigits d (List.mem_of_mem_take hd)) (by rw [hlen]; simp; omega),
      fun input i => ?_⟩
    rw [List.nil_append, finish_padded hmin hmax hlen hv hword hcap, htake]

end A85Dec

/-! ## The forms of zero tuples -/

theorem a85Chars_append {pre : List Byte} (hpre : pre.length % 4 = 0) (post : List Byte) :
    a85Chars (pre ++ post) = a85Chars pre ++ a85Chars post := by
  induction pre using a85Chars.induct with
  | case1 a b c d rest ih =>
    simp only [List.cons_append, a85Chars_tuple, List.append_assoc]
    rw [ih (by simp only [List.length_cons] at hpre; omega)]
  | case2 => rfl
  | case3 last hlong hne =>
    have hlt := length_lt_four hlong
    have hpos := List.length_pos_iff.2 hne
    omega

/-- R252: a full tuple of zeros. -/
theorem a85Chars_zeros (post : List Byte) : a85Chars ([0, 0, 0, 0] ++ post) = [0x7A] ++ a85Chars post :=
  (a85Chars_tuple 0 0 0 0 post).trans (congrArg (· ++ a85Chars post) (if_pos (by decide)))

/-- R254: a partial tuple of zeros. -/
theorem a85Chars_replicate {k : Nat} (hmin : 1 ≤ k) (hmax : k ≤ 3) :
    a85Chars (List.replicate k 0) = List.replicate (k + 1) 0x21 := by
  interval_cases k <;> decide

/-- Settles O41: the session returns its stream (`execAll_a85Enc_fresh`), the tuples of zeros stand in it as `a85Chars_zeros` and
`a85Chars_replicate` say, and the decoder reads its characters as the bytes (`A85Dec.reads_chars`) through the line breaks. -/
theorem a85RoundTrip : Obligations.A85RoundTrip := by
  intro s bytes hs hnone hfit
  obtain ⟨t, ht, hstatus, hresult, -⟩ := execAll_a85Enc_fresh hs hnone hfit
  refine ⟨t, a85Stream bytes, ht, hstatus, hresult, rfl, ?_, ?_, fun u hu hcap => ?_⟩
  · rintro pre post hpre rfl
    rw [List.append_assoc, a85Chars_append hpre, a85Chars_zeros, List.append_assoc]
  · rintro pre k hpre hmin hmax rfl
    rw [a85Chars_append hpre, a85Chars_replicate hmin hmax]
  · obtain ⟨group, out, hreads, hfinish⟩ := A85Dec.reads_chars (out := []) (by simpa using hcap)
    obtain ⟨c, hrun⟩ := (hreads.wrapped (col := 0)).run_done hfinish
    exact operation_loop_done hu (run := fun p => A85Dec.run p (a85Stream bytes)) hrun

end Sys2Proof.Machine
end

section
/-! O50, O51 and O52. An operation issued between operations ends in one of two ways (`OperationEnds`): with an error, in the
state before it but for the status and the closed session, or with success and a result of its kind. A drawn allocation
failure is such an error (`exec_allocFails`); where none is drawn, each operation ends so by its own effect
(`exec_ready_ends`), one with a loop by what its turns keep and return with (`Progress.Keeps`). -/

namespace Sys2Proof.Machine

/-! ## What a loop returns with -/

/-- R281, R71: a status and a result of an operation that succeeds. -/
structure Succeeds (i : Instr) (st : Status) (r : Result) : Prop where
  result : delivers i r = true
  status : st = .ok ∨ st = .okEarlyEnd ∧ ∃ rows, i = .hufDecPage rows

theorem Succeeds.ok {i : Instr} {r : Result} (h : delivers i r = true) : Succeeds i .ok r := ⟨h, .inl rfl⟩

theorem Succeeds.isError {i : Instr} {st : Status} {r : Result} (h : Succeeds i st r) : st.isError = false := by
  obtain rfl | ⟨rfl, -⟩ := h.status <;> rfl

/-- A turn that goes on keeps `I`, and one that returns does so with `R`. -/
def Progress.Keeps {α : Type} (I : α → Prop) (R : Status → Result → Prop) : Progress α → Prop
  | .more c => I c
  | .done _ st r => R st r
  | .raised _ => True
  | .stuck _ => True

/-- R331: an operation that is over: it has returned with `R` or raised an error. -/
def Progress.Concludes {α : Type} (R : Status → Result → Prop) : Progress α → Prop
  | .more _ => False
  | .done _ st r => R st r
  | .raised _ => True
  | .stuck _ => False

namespace Progress

variable {α β : Type} {I J : α → Prop} {R : Status → Result → Prop} {p : Progress α}

theorem Keeps.and_all (h : p.Keeps I R) (hall : p.All J) : p.Keeps (fun c => J c ∧ I c) R := by
  cases p with
  | more c => exact ⟨hall, h⟩
  | done c st r => exact h
  | raised e => trivial
  | stuck f => trivial

theorem keeps_ofExcept {k : β → Progress α} {x : Except ErrorKind β} (h : ∀ b, (k b).Keeps I R) :
    (Progress.ofExcept k x).Keeps I R := by
  cases x with
  | ok b => exact h b
  | error e => trivial

/-- The operations that collect bytes and return them at their end. -/
theorem concludes_bytes {i : Instr} (hi : ∀ out, delivers i (.bytes out) = true) {c : α}
    {x : Except ErrorKind (List Byte)} :
    (Progress.ofExcept (fun out => .done c .ok (.bytes out)) x).Concludes (Succeeds i) := by
  cases x with
  | ok out => exact .ok (hi out)
  | error e => trivial

end Progress

/-- A loop that does not get stuck is over, and returns with what its turns return with. -/
theorem runLoop_concludes {α : Type} {turn : α → Progress α} {I : α → Prop} {R : Status → Result → Prop}
    (hturn : ∀ c, I c → (turn c).Keeps I R) {fuel : Nat} {c : α} (hc : I c)
    (hstuck : ∀ f, runLoop turn fuel c ≠ .stuck f) :
    (runLoop turn fuel c).Concludes R := by
  have hmore (c c' : α) (hc : I c) (h : turn c = .more c') : I c' := by
    have hk := hturn c hc
    rw [h] at hk
    exact hk
  obtain hrun | ⟨d, hd, hrun⟩ := runLoop_invariant I hmore fuel c hc
  · exact absurd hrun (hstuck _)
  have hk := hturn d hd
  rw [hrun] at hk
  cases h : runLoop turn fuel c with
  | more c' => exact runLoop_ne_more _ _ _ h
  | done c' st r => rw [h] at hk; exact hk
  | raised e => trivial
  | stuck f => exact hstuck f h

/-! ## The turns -/

section

variable {p : Params} {R : Status → Result → Prop}

theorem sbPackTurn_keeps (input : List Byte) (c : ByteCoder) :
    (sbPackTurn p c).Keeps (fun _ => True) (Succeeds (.sbPack input)) := by
  unfold sbPackTurn
  split
  · exact Progress.keeps_ofExcept fun _ => trivial
  · exact Progress.keeps_ofExcept fun _ => .ok rfl

theorem sbUnpackTurn_keeps (input : List Byte) (c : ByteCoder) :
    (sbUnpackTurn p c).Keeps (fun _ => True) (Succeeds (.sbUnpack input)) := by
  unfold sbUnpackTurn sbTurn
  split
  · rw [Turn.take_token]
    cases decodeSb _ with
    | length len =>
      rw [sbAccept, sbData]
      split
      · trivial
      · exact Progress.keeps_ofExcept fun _ => trivial
    | terminator => exact .ok rfl
  · trivial

theorem PbDec.chunk_keeps (c : PbDec) (bytes : List Byte) (i : Nat) :
    (c.chunk p bytes i).Keeps (·.total = c.total) R := by
  unfold PbDec.chunk
  split
  · trivial
  · exact Progress.keeps_ofExcept fun _ => rfl

theorem PbDec.accept_keeps (c : PbDec) (t : PbTok) : (c.accept p t).Keeps (·.total = c.total) R := by
  cases t with
  | literal n =>
    simp only [PbDec.accept, PbDec.literal]
    split
    · trivial
    · exact PbDec.chunk_keeps c _ _
  | illegal80 => trivial
  | rep h =>
    simp only [PbDec.accept, PbDec.rep]
    split
    · exact PbDec.chunk_keeps c _ _
    · trivial

/-- R226: the decoder returns at its total. -/
theorem PbDec.advance_keeps {c : PbDec} {input : List Byte} {total : Nat} (hc : c.wf p = true ∧ c.total = total) :
    (c.advance p).Keeps (fun c => c.wf p = true ∧ c.total = total) (Succeeds (.pbDec input total)) := by
  obtain ⟨hwf, rfl⟩ := hc
  refine Progress.Keeps.and_all ?_ (PbDec.advance_all hwf)
  obtain ⟨-, hproduced, hle, -⟩ := PbDec.wf_iff.1 hwf
  unfold PbDec.advance PbDec.turn
  split
  · split
    · exact PbDec.accept_keeps _ _
    · trivial
  · rename_i hlt
    exact .ok (decide_eq_true (hproduced ▸ Nat.le_antisymm hle (Nat.not_lt.1 hlt)))

/-- R235: the decoder returns at its total. -/
theorem CvDec.advance_keeps {c : CvDec} {input : List Byte} {total : Nat} (hc : c.wf p = true ∧ c.total = total) :
    (c.advance p).Keeps (fun c => c.wf p = true ∧ c.total = total) (Succeeds (.cvDec input total)) := by
  obtain ⟨hwf, rfl⟩ := hc
  refine Progress.Keeps.and_all ?_ (CvDec.advance_all hwf)
  obtain ⟨-, hproduced, hle, -⟩ := CvDec.wf_iff.1 hwf
  unfold CvDec.advance CvDec.turn
  split
  · split
    · rw [Turn.take_token, CvDec.packet]
      split
      · trivial
      · rfl
    · trivial
  · rename_i hlt
    exact .ok (decide_eq_true (hproduced ▸ Nat.le_antisymm hle (Nat.not_lt.1 hlt)))

theorem A85Dec.emitBytes_keeps (c : A85Dec) (bytes : List Byte) : (c.emitBytes p bytes).Keeps (fun _ => True) R :=
  Progress.keeps_ofExcept fun _ => trivial

theorem A85Dec.accept_keeps (input : List Byte) (c : A85Dec) (t : A85Tok) :
    (c.accept p t).Keeps (fun _ => True) (Succeeds (.a85Dec input)) := by
  cases t with
  | digit d =>
    simp only [A85Dec.accept, A85Dec.digit]
    split
    · split
      · trivial
      · exact A85Dec.emitBytes_keeps _ _
    · trivial
  | zero =>
    simp only [A85Dec.accept, A85Dec.zero]
    split
    · trivial
    · exact A85Dec.emitBytes_keeps _ _
  | stop => exact Progress.keeps_ofExcept fun _ => .ok rfl
  | linebreak => trivial
  | whitespace b => trivial
  | illegal b => trivial

theorem A85Dec.advance_keeps (input : List Byte) (c : A85Dec) :
    (c.advance p).Keeps (fun _ => True) (Succeeds (.a85Dec input)) := by
  unfold A85Dec.advance A85Dec.turn
  split
  · exact A85Dec.accept_keeps _ _ _
  · trivial

theorem LzwDec.emitString_keeps (c : LzwDec) (k : Nat) (s : List Byte) :
    (c.emitString p k s).Keeps (·.expected = c.expected) R := by
  refine Progress.keeps_ofExcept fun _ => ?_
  dsimp only
  split
  · trivial
  · exact (LzwDec.grow_took _ _).2.1

/-- R197, R196: of the codes only `END_CODE` returns, at the declared total. -/
theorem LzwDec.accept_keeps {c : LzwDec} (hproduced : c.produced = c.out.length) (input : List Byte) (t : LzwTok) :
    (c.accept p t).Keeps (·.expected = c.expected) (Succeeds (.lzwDec input c.expected)) := by
  cases t with
  | literal b => exact LzwDec.emitString_keeps _ _ _
  | clear => rfl
  | stop =>
    rw [LzwDec.accept, LzwDec.finish]
    split
    · trivial
    · rename_i heq
      exact .ok (decide_eq_true (hproduced ▸ not_not.1 heq))
  | string k =>
    rw [LzwDec.accept, LzwDec.known]
    split
    · exact LzwDec.emitString_keeps _ _ _
    · trivial
  | next =>
    rw [LzwDec.accept, LzwDec.special]
    split
    · exact LzwDec.emitString_keeps _ _ _
    · trivial
  | illegal k => trivial

theorem LzwDec.advance_keeps {c : LzwDec} {input : List Byte} {expected : Nat}
    (hc : c.wf p = true ∧ c.expected = expected) :
    (c.advance p).Keeps (fun c => c.wf p = true ∧ c.expected = expected) (Succeeds (.lzwDec input expected)) := by
  obtain ⟨hwf, rfl⟩ := hc
  refine Progress.Keeps.and_all ?_ (LzwDec.advance_all hwf)
  unfold LzwDec.advance LzwDec.turn
  split
  · rename_i k br _
    exact LzwDec.accept_keeps (c := { c with br := br }) (LzwDec.wf_iff.1 hwf).produced input _
  · trivial

end

/-! ## The Huffman decoder's turns -/

/-- R142, R150: the operation that the decoder is in. -/
def HufMode.instr : HufMode → Instr
  | .line => .hufDecLine
  | .page rows => .hufDecPage rows

namespace HufRun

theorem endLine_keeps (r : HufRun) (line : LineEnd) :
    (r.endLine line).Keeps (·.mode = r.mode) (Succeeds r.mode.instr) := by
  obtain ⟨dec, mode, phase⟩ := r
  cases mode with
  | line =>
    cases line with
    | row px => exact .ok rfl
    | eolOnly => exact .ok rfl
    | endOfInput => exact .ok rfl
  | page rows =>
    cases line with
    | row px => rfl
    | eolOnly =>
      simp only [endLine]
      split
      · exact ⟨rfl, .inr ⟨rfl, rows, rfl⟩⟩
      · rfl
    | endOfInput => trivial

theorem accept_keeps (r : HufRun) (first : Bool) (e : Entry) :
    (r.accept first e).Keeps (·.mode = r.mode) (Succeeds r.mode.instr) := by
  unfold accept
  split
  · split
    · exact endLine_keeps _ _
    · trivial
  · split
    · split
      · trivial
      split
      · exact endLine_keeps _ _
      · exact endLine_keeps _ _
    · exact Progress.keeps_ofExcept fun _ => rfl
    · exact Progress.keeps_ofExcept fun _ => rfl
    · exact Progress.keeps_ofExcept fun _ => rfl
    · exact Progress.keeps_ofExcept fun _ => rfl
    · exact Progress.keeps_ofExcept fun _ => rfl

theorem beginLine_keeps (r : HufRun) : r.beginLine.Keeps (·.mode = r.mode) (Succeeds r.mode.instr) := by
  unfold beginLine
  split
  · exact endLine_keeps _ _
  · rfl

theorem advance_keeps {r : HufRun} {mode : HufMode} (hmode : r.mode = mode) :
    r.advance.Keeps (·.mode = mode) (Succeeds mode.instr) := by
  subst hmode
  unfold advance turn
  split
  · split
    · exact beginLine_keeps r
    · rename_i rows hrows
      split
      · exact beginLine_keeps r
      · rw [Turn.take_stop, hrows]
        exact .ok rfl
  · split
    · exact endLine_keeps r _
    split
    · rename_i d _
      exact accept_keeps { r with dec := d } _ _
    · trivial

end HufRun

theorem HufDec.run_concludes (d : HufDec) (mode : HufMode) : (d.run mode).Concludes (Succeeds mode.instr) :=
  runLoop_concludes (I := (·.mode = mode)) (fun _ => HufRun.advance_keeps) rfl
    (run_ne_stuck (HufDec.run_ends d mode) (HufRun.advance_ends (cap := 0)))

/-! ## The operations of the single-operation units -/

section

variable (p : Params) (input : List Byte)

theorem LzwEnc.run_concludes : (LzwEnc.run p input).Concludes (Succeeds (.lzwEnc input)) := by
  obtain ⟨d, hrun⟩ := LzwEnc.run_eq p input
  rw [hrun]
  exact Progress.concludes_bytes fun _ => rfl

theorem LzwDec.run_concludes (expected : Nat) :
    (LzwDec.run p input expected).Concludes (Succeeds (.lzwDec input expected)) :=
  runLoop_concludes (fun _ => LzwDec.advance_keeps) ⟨LzwDec.fresh_wf p input expected, rfl⟩
    (LzwDec.run_ne_stuck p input expected)

theorem sbPackRun_concludes : (sbPackRun p input).Concludes (Succeeds (.sbPack input)) :=
  runLoop_concludes (fun c _ => sbPackTurn_keeps input c) trivial
    (run_ne_stuck (byteCoder_ends (fun _ _ => sbPackTurn_more) input) sbPackTurn_ends)

theorem sbUnpackRun_concludes : (sbUnpackRun p input).Concludes (Succeeds (.sbUnpack input)) :=
  runLoop_concludes (fun c _ => sbUnpackTurn_keeps input c) trivial
    (run_ne_stuck (byteCoder_ends (fun _ _ => sbUnpackTurn_more) input) sbUnpackTurn_ends)

theorem pbEncRun_concludes : (pbEncRun p input).Concludes (Succeeds (.pbEnc input)) := by
  obtain ⟨d, hrun⟩ := runLoop_pbEncTurn (p := p) (c := ByteCoder.fresh input) input rfl (Nat.lt_succ_self _)
  rw [pbEncRun, hrun]
  exact Progress.concludes_bytes fun _ => rfl

theorem PbDec.run_concludes (total : Nat) : (PbDec.run p input total).Concludes (Succeeds (.pbDec input total)) :=
  runLoop_concludes (fun _ => PbDec.advance_keeps)
    ⟨PbDec.wf_iff.2 ⟨Nat.zero_le _, rfl, Nat.zero_le _, Nat.zero_le _⟩, rfl⟩
    (run_ne_stuck (PbDec.run_ends p input total) PbDec.advance_ends)

theorem CvEnc.run_concludes {runs : List CvRun} (hok : runs.all (CvRun.ok p) = true) (total : Nat) :
    (CvEnc.run p runs).Concludes (Succeeds (.cvEnc runs total)) := by
  obtain ⟨d, hrun⟩ := CvEnc.run_eq hok
  rw [hrun]
  exact Progress.concludes_bytes fun _ => rfl

theorem CvDec.run_concludes (total : Nat) : (CvDec.run p input total).Concludes (Succeeds (.cvDec input total)) :=
  runLoop_concludes (fun _ => CvDec.advance_keeps) ⟨CvDec.wf_iff.2 ⟨Nat.zero_le _, rfl, Nat.zero_le _, nofun⟩, rfl⟩
    (run_ne_stuck (CvDec.run_ends p input total) CvDec.advance_ends)

theorem A85Dec.run_concludes : (A85Dec.run p input).Concludes (Succeeds (.a85Dec input)) :=
  runLoop_concludes (fun c _ => A85Dec.advance_keeps input c) trivial
    (run_ne_stuck (A85Dec.run_ends p input) A85Dec.advance_ends)

end

/-! ## The two ends of an operation -/

/-- R281, R285: the operation has ended in a next state: failed with nothing changed but the status and the closed session, or
returned with success. -/
inductive OperationEnds (i : Instr) (s : State) : Answer → Prop
  | failed (st : Status) (hst : st.isError = true) :
    OperationEnds i s (.next
      ((if closesSession i st = true then s.close (sessionOf i) else s).answered (sessionOf i) st .nothing))
  | returned {t : State} (st : Status) (hactive : t.active = none) (hstatus : t.status.get (sessionOf i) = some st)
    (h : Succeeds i st t.result) : OperationEnds i s (.next t)

theorem ErrorKind.isError_status (e : ErrorKind) : e.status.isError = true := by cases e <;> rfl

/-- R285, R287, R107: InvalidOperand is the one error that closes no session, but for the end of the input of `BR_READ`. -/
theorem closesSession_status {i : Instr} {e : ErrorKind} (hi : e = .corruptBitstream → ∀ width, i ≠ .brRead width) :
    closesSession i e.status = true ↔ e ≠ .invalidOperand := by
  unfold closesSession
  split
  · rename_i h
    cases e <;> cases h
    simp
  · rename_i width h
    cases e <;> cases h
    exact absurd rfl (hi rfl width)
  · rename_i h _
    exact iff_of_true rfl fun he => h (congrArg ErrorKind.status he)

namespace OperationEnds

theorem finish {i : Instr} {s : State} (t : State) {st : Status} {r : Result} (h : Succeeds i st r) :
    OperationEnds i s (.next (t.finish (sessionOf i) st r)) :=
  .returned _ rfl (Statuses.get_set_self ..) h

section

variable {i : Instr} {s : State} (ha : s.active = none)

include ha

/-- R285: an error raised by the operation, its draw used up. -/
theorem raise (e : ErrorKind) (hi : e = .corruptBitstream → ∀ width, i ≠ .brRead width := by nofun) :
    OperationEnds i s (.next (s.popDraw.raise (sessionOf i) e)) := by
  have hstate : s.popDraw.raise (sessionOf i) e =
      (if closesSession i e.status = true then s.close (sessionOf i) else s).answered (sessionOf i) e.status .nothing := by
    by_cases he : e = .invalidOperand
    · rw [if_neg ((closesSession_status hi).not.2 (not_not.2 he)), he, State.raise_invalidOperand, State.popDraw_finish ha]
      rfl
    · have hclose : s.popDraw.close (sessionOf i) = (s.close (sessionOf i)).popDraw := by cases sessionOf i <;> rfl
      rw [if_pos ((closesSession_status hi).2 he), State.raise_of_ne _ _ _ he, hclose,
        State.popDraw_finish (by simpa using ha)]
  rw [hstate]
  exact .failed _ e.isError_status

/-! ### Operations with one turn -/

theorem complete_bind {α : Type} {x : Except ErrorKind α} {f : α → Except ErrorKind State}
    (h : ∀ a, OperationEnds i s (s.popDraw.complete (sessionOf i) (f a)))
    (hi : ∀ width, i ≠ .brRead width := by nofun) :
    OperationEnds i s (s.popDraw.complete (sessionOf i) (x >>= f)) := by
  cases x with
  | ok a => exact h a
  | error e => exact raise ha e fun _ => hi

/-! ### Loops -/

theorem settle {α : Type} {mk : α → Active} {p : Progress α} (h : p.Concludes (Succeeds i))
    (hi : ∀ width, i ≠ .brRead width := by nofun) :
    OperationEnds i s (Machine.settle (sessionOf i) mk (s.popDraw.openSession (sessionOf i)) p) := by
  cases p with
  | more c => exact h.elim
  | done c st r => exact finish _ h
  | raised e => rw [settle_raised, State.openSession_raise]; exact raise ha e fun _ => hi
  | stuck f => exact h.elim

end

/-- An operation whose draw does not fail. -/
theorem operation {i : Instr} {s : State} (hs : s.ready = true) {body : State → Answer}
    (h : OperationEnds i s (body s.popDraw)) : OperationEnds i s (Machine.operation (sessionOf i) s body) := by
  rwa [operation_ready hs]

/-- The whole of a single-operation unit's loop, which opens the session. -/
theorem operation_loop {i : Instr} {s : State} (hs : s.ready = true) {α : Type} {mk : α → Active}
    {run : Params → Progress α}
    (hexec : exec i s = Machine.operation (sessionOf i) s fun s =>
      Machine.settle (sessionOf i) mk (s.openSession (sessionOf i)) (run s.params))
    (h : (run s.params).Concludes (Succeeds i)) (hi : ∀ width, i ≠ .brRead width := by nofun) :
    OperationEnds i s (exec i s) :=
  hexec ▸ operation hs (settle (State.active_of_ready hs) h hi)

theorem complete_pure {i : Instr} {s t : State} {r : Result} (h : delivers i r = true) :
    OperationEnds i s (s.popDraw.complete (sessionOf i) (pure (t.finish (sessionOf i) .ok r))) :=
  finish t (.ok h)

/-- R142, R150: both operations of the Huffman decoder. -/
theorem settleHuf {s : State} (ha : s.active = none) {mode : HufMode} {p : Progress HufRun}
    (h : p.Concludes (Succeeds mode.instr)) : OperationEnds mode.instr s (Machine.settleHuf s.popDraw p) := by
  have hu : sessionOf mode.instr = .hufDec := by cases mode <;> rfl
  have hi (width : Nat) : mode.instr ≠ .brRead width := by cases mode <;> exact nofun
  cases p with
  | more r => exact h.elim
  | done r st res =>
    simp only [Machine.settleHuf, ← hu]
    split
    · exact finish _ h
    · exact finish _ h
  | raised e => rw [Machine.settleHuf, ← hu]; exact raise ha e fun _ => hi
  | stuck f => exact h.elim

/-- R39, R286: in both ends no operation is in progress and the status is written; an error has no result. -/
theorem exists_next {i : Instr} {s : State} {a : Answer} (ha : s.active = none) (h : OperationEnds i s a) :
    ∃ t st, a = .next t ∧ t.active = none ∧ t.status.get (sessionOf i) = some st ∧
      (st = .okEarlyEnd → ∃ rows, i = .hufDecPage rows) ∧ (st.isError = true → t.result = .nothing) ∧
      (st.isError = false → delivers i t.result = true) := by
  cases h with
  | failed st hst =>
    refine ⟨_, st, rfl, ?_, Statuses.get_set_self .., ?_, fun _ => rfl, fun hok => ?_⟩
    · split
      · exact (s.close_active _).trans ha
      · exact ha
    · rintro rfl
      cases hst
    · cases hst.symm.trans hok
  | returned st hactive hstatus hsucceeds =>
    refine ⟨_, st, rfl, hactive, hstatus, ?_, fun herror => ?_, fun _ => hsucceeds.result⟩
    · rintro rfl
      exact hsucceeds.status.elim nofun And.right
    · cases hsucceeds.isError.symm.trans herror

/-- R285, R289: an operation whose status is an error has failed. -/
theorem eq_answered {i : Instr} {s t : State} {st : Status} (h : OperationEnds i s (.next t))
    (hstatus : t.status.get (sessionOf i) = some st) (herror : st.isError = true) :
    t = (if closesSession i st = true then s.close (sessionOf i) else s).answered (sessionOf i) st .nothing := by
  cases h with
  | failed st' _ =>
    have hst : some st' = some st := (Statuses.get_set_self ..).symm.trans hstatus
    cases hst
    rfl
  | returned st' _ hstatus' hsucceeds =>
    have hst : some st' = some st := hstatus'.symm.trans hstatus
    cases hst
    cases hsucceeds.isError.symm.trans herror

end OperationEnds

/-! ## The operations of R71 -/

section

variable {s : State} (hs : s.ready = true)

include hs

/-- R107: the one error other than InvalidOperand that closes no session. -/
theorem execBrRead_ends (width : Nat) : OperationEnds (.brRead width) s (exec (.brRead width) s) := by
  have hinvalid : OperationEnds (.brRead width) s (.next (s.answered .bitReader .invalidOperand .nothing)) :=
    .failed .invalidOperand rfl
  by_cases hwidth : width ≤ 16
  · cases hr : s.br with
    | none =>
      obtain ⟨-, hnone, -⟩ := brReadTakesTheNextBits s width hs
      rw [hnone hr]
      exact hinvalid
    | some r =>
      by_cases hlen : width ≤ r.bits.length
      · rw [exec_brRead hs hr hwidth hlen]
        have hstatus := Statuses.get_set_self s.status .bitReader (some .ok)
        exact .returned (i := .brRead width) .ok (s.active_of_ready hs) hstatus (.ok rfl)
      · rw [exec_brRead_short hs hr hwidth (Nat.not_le.1 hlen)]
        exact .failed .corruptBitstream rfl
  · rw [exec_invalidOperand (i := .brRead width) hs rfl (decide_eq_false hwidth)]
    exact hinvalid

/-- R281: each of the 24 operations, the environment drawing no failure. -/
theorem exec_ready_ends {i : Instr} (hi : isOperation i = true) : OperationEnds i s (exec i s) := by
  have ha := State.active_of_ready hs
  cases i with
  | rmGet =>
    rw [exec]
    exact .operation hs <| .complete_bind ha fun r => .complete_pure <|
      decide_eq_true (Nat.le_add_left 1 r.length.toNat)
  | rmSet | bwInit | brInit | hufEncBegin | hufDecBegin | a85EncByte | a85EncEnd =>
    rw [exec]
    exact .operation hs <| .complete_bind ha fun _ => .complete_pure rfl
  | bwWrite | hufEncEnd =>
    rw [exec]
    exact .operation hs <| .complete_bind ha fun _ => .complete_bind ha fun _ =>
      .complete_bind ha fun _ => .complete_pure rfl
  | bwFlush =>
    rw [exec]
    exact .operation hs <| .complete_bind ha fun _ => .complete_bind ha fun _ => .complete_pure rfl
  | brRead width => exact execBrRead_ends hs width
  | hufEncLine line =>
    rw [exec, execHufEncLine, operation_ready hs]
    refine .complete_bind ha fun _ => .complete_bind ha fun h => ?_
    split
    · exact .raise ha _
    · exact .complete_bind ha fun _ => .complete_pure rfl
  | hufDecLine =>
    cases hd : s.hufDec with
    | none => rw [exec_hufDecLine_noSession hs hd]; exact .failed .invalidOperand rfl
    | some d => rw [exec_hufDecLine hs hd, ← HufDec.run_eq_outcome]; exact .settleHuf ha (d.run_concludes .line)
  | hufDecPage rows =>
    cases hd : s.hufDec with
    | none => rw [exec_hufDecPage_noSession hs hd]; exact .failed .invalidOperand rfl
    | some d => rw [exec_hufDecPage hs hd, ← HufDec.run_eq_outcome]; exact .settleHuf ha (d.run_concludes (.page rows))
  | lzwEnc input => exact .operation_loop hs (run := fun p => LzwEnc.run p input) rfl (LzwEnc.run_concludes _ input)
  | lzwDec input expected =>
    exact .operation_loop hs (run := fun p => LzwDec.run p input expected) rfl (LzwDec.run_concludes _ input expected)
  | sbPack input => exact .operation_loop hs (run := fun p => sbPackRun p input) rfl (sbPackRun_concludes _ input)
  | sbUnpack input => exact .operation_loop hs (run := fun p => sbUnpackRun p input) rfl (sbUnpackRun_concludes _ input)
  | pbEnc input => exact .operation_loop hs (run := fun p => pbEncRun p input) rfl (pbEncRun_concludes _ input)
  | pbDec input total =>
    exact .operation_loop hs (run := fun p => PbDec.run p input total) rfl (PbDec.run_concludes _ input total)
  | cvEnc runs total =>
    cases hok : runs.all (CvRun.ok s.params) with
    | false => rw [exec_invalidOperand hs hi hok]; exact .failed .invalidOperand rfl
    | true =>
      by_cases htotal : runTotal runs = total
      · subst htotal
        exact .operation_loop hs (run := fun p => CvEnc.run p runs) (exec_cvEnc_total hs hok) (CvEnc.run_concludes _ hok _)
      · rw [exec_cvEnc_mismatch hs hok htotal]
        exact .failed .pixelCountMismatch rfl
  | cvDec input total =>
    exact .operation_loop hs (run := fun p => CvDec.run p input total) rfl (CvDec.run_concludes _ input total)
  | a85Dec input => exact .operation_loop hs (run := fun p => A85Dec.run p input) rfl (A85Dec.run_concludes _ input)
  | _ => cases hi

end

/-- R282, R288: where the draw fails, an operation ends before its checks. -/
theorem exec_allocFails {s : State} {i : Instr} (ha : s.active = none) (hf : s.allocFails = true)
    (hi : isOperation i = true) :
    exec i s = .next ((s.close (sessionOf i)).answered (sessionOf i) .allocationFailure .nothing) := by
  obtain ⟨body, hbody⟩ := exec_operation hi
  rw [hbody, operation_allocFails_answered ha hf]

/-- R281, R285: each of the 24 operations. -/
theorem exec_ends {s : State} {i : Instr} (ha : s.active = none) (hi : isOperation i = true) :
    OperationEnds i s (exec i s) := by
  cases hf : s.allocFails with
  | true =>
    obtain ⟨body, hbody⟩ := exec_operation hi
    rw [hbody, operation_allocFails ha hf]
    exact .raise ha .allocationFailure
  | false => exact exec_ready_ends ((s.ready_iff).2 ⟨ha, hf⟩) hi

/-! ## The statements -/

/-- R280: the codes of the errors. -/
theorem Status.isError_iff (st : Status) : st.isError = true ↔ 2 ≤ st.code.toNat := by cases st <;> decide

theorem Status.code_le (st : Status) : st.code.toNat ≤ 5 := by cases st <;> decide

/-- The status of the session after an operation is its own, every other session's as it was. -/
theorem exec_status {s t : State} {i : Instr} {st : Status} (h : exec i s = .next t)
    (hstatus : t.status.get (sessionOf i) = some st) : t.status = s.status.set (sessionOf i) (some st) := by
  obtain ⟨hconfined, -⟩ := exec_confines i s t h
  refine Statuses.ext_get fun u => ?_
  by_cases hu : u = sessionOf i
  · rw [hu, hstatus, Statuses.get_set_self]
  · rw [hconfined.status u hu, Statuses.get_set_of_ne _ _ _ _ hu]
    rfl

/-- Settles O50: the operation fails or succeeds (`exec_ends`) and writes no other session's status (`exec_status`). -/
theorem everyOperationEndsWithOneStatus : Obligations.EveryOperationEndsWithOneStatus := by
  intro s i ha hi
  obtain ⟨t, st, h, hactive, hstatus, hearly, herror, hsuccess⟩ := (exec_ends ha hi).exists_next ha
  have hread : t.readStatus (sessionOf i) = some st.code := by rw [t.readStatus_idle hactive, hstatus]; rfl
  exact ⟨t, st, h, hactive, exec_status h hstatus, hread, hearly, herror, hsuccess, st.isError_iff, st.code_le⟩

/-- Settles O51: an operation that ends with an error has failed (`OperationEnds.eq_answered`), and so has written no more. -/
theorem errorsArePrecise : Obligations.ErrorsArePrecise := by
  intro s t i st ha hi h hstatus herror
  exact (h ▸ exec_ends ha hi).eq_answered hstatus herror

/-- Settles O52: the draw comes before the checks (`exec_allocFails`). -/
theorem aDrawnAllocationFailureEndsAnyOperation : Obligations.ADrawnAllocationFailureEndsAnyOperation :=
  fun _ _ => exec_allocFails

end Sys2Proof.Machine
end

section
/-! O1, O59 and O53: the state after reset, and the schedules that are refused. A command during an operation is refused by the
shared opening of all operations (`exec_command_busy`), a token between operations by its decoder, which finds no context of its
own in progress, and a code word of the other colour because its class is in no set of the decoder's colour
(`CodeClass.inSet_eq_false_iff`). -/

namespace Sys2Proof.Machine

/-! ## Reset -/

theorem State.reset_readStatus (u : Session) : State.reset.readStatus u = none := by
  rw [State.readStatus_idle _ rfl, show State.reset.status = .unwritten from rfl, Statuses.get_unwritten]
  rfl

/-- Settles O1: at reset no operation is in progress and no status is written (`State.reset_readStatus`); during an operation
its session's status is not read (`State.readStatus_active`). -/
theorem resetOpensNoSessionAndWritesNothing : Obligations.ResetOpensNoSessionAndWritesNothing :=
  ⟨rfl, rfl, rfl, rfl, rfl, rfl, rfl, fun u => ⟨Statuses.get_unwritten u, State.reset_readStatus u⟩,
    fun s _ => s.readStatus_active⟩

/-- R310, R45: where no session is open there is no register to be out of its range. -/
theorem State.reset_sessionsInRange : SessionsInRange State.reset := ⟨rfl, rfl, rfl, rfl, rfl⟩

/-- Settles O59: at reset the sessions are in range (`State.reset_sessionsInRange`) and no operation is in progress. -/
theorem resetRegistersAreInRange : Obligations.ResetRegistersAreInRange :=
  State.wf_iff.2 ⟨State.reset_sessionsInRange, rfl⟩

/-! ## A token between operations -/

section

variable {s : State} (ha : s.active = none)

include ha

theorem acceptCode_idle (e : Entry) : acceptCode e s = .refused .tokenOutsideDecoder := by simp [acceptCode, ha]

theorem onLzwDec_idle (ok : LzwDec → Bool) (f : LzwDec → Progress LzwDec) :
    onLzwDec s ok f = .refused .tokenOutsideDecoder := by simp [onLzwDec, ha]

theorem onSbUnpack_idle (f : ByteCoder → Progress ByteCoder) : onSbUnpack s f = .refused .tokenOutsideDecoder := by
  simp [onSbUnpack, ha]

theorem onPbDec_idle (f : PbDec → Progress PbDec) : onPbDec s f = .refused .tokenOutsideDecoder := by simp [onPbDec, ha]

theorem execCvPacket_idle (value : List Byte) (k : Byte) : execCvPacket value k s = .refused .tokenOutsideDecoder := by
  simp [execCvPacket, ha]

theorem onA85Dec_idle (f : A85Dec → Progress A85Dec) : onA85Dec s f = .refused .tokenOutsideDecoder := by simp [onA85Dec, ha]

/-- R55: an instruction that is no command is a code word or a token of one of the five other decoders. -/
theorem exec_token_idle {i : Instr} (hi : encodeCommand i = none) : exec i s = .refused .tokenOutsideDecoder := by
  cases hc : codeEntry i with
  | some e => rw [exec_code hc, acceptCode_idle ha]
  | none =>
    cases i with
    | lzwLiteral | lzwClear | lzwEnd | lzwString | lzwNext | lzwIllegal => exact onLzwDec_idle ha _ _
    | sbLength | sbTerminator => exact onSbUnpack_idle ha _
    | pbLiteral | pbIllegal80 | pbRepeat => exact onPbDec_idle ha _
    | cvPacket value k => exact execCvPacket_idle ha value k
    | a85Digit | a85Zero | a85End | a85Linebreak | a85Whitespace | a85Illegal => exact onA85Dec_idle ha _
    | _ => nomatch hi, hc

end

/-! ## A code word of the other colour -/

/-- R141: a colour's set leaves out the terminating and makeup codes of the other colour, and no other class. -/
theorem CodeClass.inSet_eq_false_iff (c : Polarity) (k : CodeClass) :
    k.inSet c = false ↔
      (c = .white ∧ (k = .terminatingBlack ∨ k = .makeupBlack)) ∨ (c = .black ∧ (k = .terminatingWhite ∨ k = .makeupWhite)) := by
  cases c <;> cases k <;> decide

/-- R147: a code word of a class outside the set of the decoder's colour cannot be read. -/
theorem acceptCode_otherSet {s : State} {d : HufDec} {mode : HufMode} {first : Bool} {e : Entry}
    (ha : s.active = some (.hufDec mode (.code first))) (hd : s.hufDec = some d) (he : e.cls.inSet d.color = false) :
    acceptCode e s = .refused .tokenNotReadable := by
  simp [acceptCode, ha, hd, he]

/-- Settles O53: `exec_command_busy`, `exec_token_idle` and, for the other colour (`CodeClass.inSet_eq_false_iff`),
`acceptCode_otherSet`. -/
theorem refusedSchedules : Obligations.RefusedSchedules := by
  refine ⟨fun _ _ _ => exec_command_busy, fun _ _ hi ha => exec_token_idle ha hi, ?_⟩
  intro s i e d mode first hi ha hd hother
  rw [exec_code hi, acceptCode_otherSet ha hd ((CodeClass.inSet_eq_false_iff _ _).2 hother)]

end Sys2Proof.Machine
end
